-- ==== Sys2Proof/Word.lean ====
section
/-!
DEFINITION. The machine's words. A slot and a lend slot are 32 bits (R110), scalars 64, vector registers 1,024,
predicates 128 (Table 2.1). Plain names only; arithmetic on them is written where an instruction needs it.
-/

namespace Sys2Proof

/-- One byte. -/
abbrev Byte := BitVec 8
/-- One word of a pick, or one 32-bit cell. -/
abbrev Word := BitVec 32
/-- A scalar register or a doubleword. -/
abbrev DWord := BitVec 64
/-- A vector register v0 to v95 (Table 2.1). -/
abbrev VReg := BitVec 1024
/-- A predicate register q0 to q23, one bit for each byte position (Table 2.1). -/
abbrev QReg := BitVec 128

end Sys2Proof
end

