-- ==== Sys2Proof/Machine/Flags.lean ====
section
/-!
DEFINITION. Number formats, rounding and the exception flags (R92, R95 to R100). A value is decoded to an exact dyadic
number, an operation is computed exactly, and one rounding gives the bits, the flags, and whether the exact result was
subnormal. Flags are those of sys.fflags: 4 invalid, 3 divide-by-zero, 2 overflow, 1 underflow, 0 inexact (Table 9.5).
-/

namespace Sys2Proof.Machine

/-! ## Formats (Table 6.1) -/

/-- A floating-point format: exponent and fraction bits, bias, the magnitude code of the largest finite value, the code
of infinity where it has one, and the canonical NaN where it has one. -/
structure Fmt where
  ebits : Nat
  mbits : Nat
  bias : Nat
  maxCode : Nat
  infCode : Option Nat
  nan : Option Nat
deriving DecidableEq, Repr

/-- Width of a format in bits. -/
def Fmt.width (f : Fmt) : Nat := f.ebits + f.mbits + 1
/-- Exponent of the least normal value. -/
def Fmt.emin (f : Fmt) : Int := 1 - (f.bias : Int)
/-- The sign bit's place value. -/
def Fmt.signBit (f : Fmt) : Nat := 2 ^ (f.ebits + f.mbits)

def binary64 : Fmt := ⟨11, 52, 1023, 0x7FEFFFFFFFFFFFFF, some 0x7FF0000000000000, some 0x7FF8000000000000⟩
def binary32 : Fmt := ⟨8, 23, 127, 0x7F7FFFFF, some 0x7F800000, some 0x7FC00000⟩
def binary16 : Fmt := ⟨5, 10, 15, 0x7BFF, some 0x7C00, some 0x7E00⟩
def bf16 : Fmt := ⟨8, 7, 127, 0x7F7F, some 0x7F80, some 0x7FC0⟩
def e4m3 : Fmt := ⟨4, 3, 7, 0x7E, none, some 0x7F⟩
def e5m2 : Fmt := ⟨5, 2, 15, 0x7B, some 0x7C, some 0x7E⟩
def e2m1 : Fmt := ⟨2, 1, 1, 0x7, none, none⟩

/-! ## Values -/

/-- A number: a NaN, an infinity, or (−1)^neg · m · 2^x. -/
inductive Num where
  | nan (signalling : Bool)
  | inf (neg : Bool)
  | fin (neg : Bool) (m : Nat) (x : Int)
deriving DecidableEq, Repr

/-- The value of a code (R92, R96). -/
def Fmt.decode (f : Fmt) (code : Nat) : Num :=
  let neg := code / f.signBit % 2 == 1
  let mag := code % f.signBit
  let e := mag / 2 ^ f.mbits
  let frac := mag % 2 ^ f.mbits
  if mag ≤ f.maxCode then
    if e = 0 then .fin neg frac (f.emin - f.mbits)
    else .fin neg (frac + 2 ^ f.mbits) (f.emin - f.mbits + (e - 1 : Nat))
  else if f.infCode = some mag then .inf neg
  else .nan (f.mbits ≥ 7 && !frac.testBit (f.mbits - 1))

def Num.isNan (n : Num) : Bool := match n with | .nan _ => true | _ => false
def Num.isSignalling (n : Num) : Bool := match n with | .nan b => b | _ => false
def Num.isInf (n : Num) : Bool := match n with | .inf _ => true | _ => false
def Num.isZero (n : Num) : Bool := match n with | .fin _ 0 _ => true | _ => false
def Num.negative (n : Num) : Bool := match n with | .nan _ => false | .inf b => b | .fin b _ _ => b
/-- The number with its sign inverted. -/
def Num.neg (n : Num) : Num := match n with | .nan b => .nan b | .inf b => .inf (!b) | .fin b m x => .fin (!b) m x
/-- The number without its sign. -/
def Num.abs (n : Num) : Num := match n with | .nan b => .nan b | .inf _ => .inf false | .fin _ m x => .fin false m x
/-- floor(log2 |v|) of a nonzero finite value. -/
def Num.exponent (n : Num) : Int := match n with | .fin _ m x => (Nat.log2 m : Int) + x | _ => 0

/-- Is a code a subnormal of its format (R100)? -/
def Fmt.subnormal (f : Fmt) (code : Nat) : Bool :=
  let mag := code % f.signBit
  0 < mag && mag < 2 ^ f.mbits

/-- m · 2^x as an integer over a common exponent z ≤ x. -/
def scaleTo (m : Nat) (x z : Int) : Nat := m <<< (x - z).toNat
/-- A signed magnitude as an integer. -/
def signed (neg : Bool) (m : Nat) : Int := if neg then -(m : Int) else m

/-- Compare two numbers that are not NaN: less, equal, greater. −0 and +0 are equal (R97). -/
def Num.compare (a b : Num) : Ordering :=
  match a, b with
  | .inf p, .inf q => if p = q then .eq else if p then .lt else .gt
  | .inf p, _ => if p then .lt else .gt
  | _, .inf q => if q then .gt else .lt
  | .fin p m x, .fin q n y =>
    let z := if x < y then x else y
    let i := signed p (scaleTo m x z)
    let j := signed q (scaleTo n y z)
    if i < j then .lt else if i = j then .eq else .gt
  | _, _ => .eq

/-! ## Flags (R99) -/

def flagInvalid : BitVec 5 := 0b10000#5
def flagDivZero : BitVec 5 := 0b01000#5
def flagOverflow : BitVec 5 := 0b00100#5
def flagUnderflow : BitVec 5 := 0b00010#5
def flagInexact : BitVec 5 := 0b00001#5
/-- A flag, if a condition holds. -/
def flagIf (c : Bool) (f : BitVec 5) : BitVec 5 := if c then f else 0#5

/-! ## Rounding (R95) -/

/-- The result of one rounding: the code, the flags, and whether the exact value was in the subnormal range (R100). -/
structure Rounded where
  code : Nat
  flags : BitVec 5
  tiny : Bool
deriving DecidableEq, Repr

/-- Does rounding move a magnitude up, given the bits dropped: `half` compares them with half a unit, `odd` is the last
bit kept? -/
def roundsUp (mode : BitVec 2) (neg : Bool) (half : Ordering) (odd inexact : Bool) : Bool :=
  match mode with
  | 0#2 => half == .gt || (half == .eq && odd)
  | 1#2 => false
  | 2#2 => neg && inexact
  | _ => !neg && inexact

/-- m · 2^x rounded to a multiple of 2^z: the multiple, and whether it is inexact. -/
def roundAt (mode : BitVec 2) (neg : Bool) (m : Nat) (x z : Int) : Nat × Bool :=
  if z ≤ x then (m <<< (x - z).toNat, false)
  else
    let s := (z - x).toNat
    let q := m >>> s
    let r := m - (q <<< s)
    let inexact := r != 0
    let half := compareNat (2 * r) (1 <<< s)
    (if roundsUp mode neg half (q % 2 == 1) inexact then q + 1 else q, inexact)
where
  /-- Three-way comparison of two counts. -/
  compareNat (a b : Nat) : Ordering := if a < b then .lt else if a = b then .eq else .gt

/-- The code of an overflowed result: infinity or the largest finite value, by mode and sign (R95, R98). Without an
infinity, the canonical NaN stands for it, and without a NaN the largest finite value. -/
def Fmt.overflowCode (f : Fmt) (mode : BitVec 2) (neg : Bool) : Nat :=
  let toInf := mode == 0#2 || (mode == 2#2 && neg) || (mode == 3#2 && !neg)
  let s := if neg then f.signBit else 0
  if !toInf then s + f.maxCode
  else
    match f.infCode with
    | some c => s + c
    | none => f.nan.getD (s + f.maxCode)

/-- Round (−1)^neg · m · 2^x to a format under a mode. -/
def Fmt.round (f : Fmt) (mode : BitVec 2) (neg : Bool) (m : Nat) (x : Int) : Rounded :=
  let s := if neg then f.signBit else 0
  if m = 0 then ⟨s, 0#5, false⟩
  else
    let e : Int := (Nat.log2 m : Int) + x
    let low := f.emin - f.mbits
    let z := if e - f.mbits < low then low else e - f.mbits
    let (n, inexact) := roundAt mode neg m x z
    let exactTiny := e < f.emin
    -- tininess after rounding: rounded to the same precision with an unbounded exponent (R99)
    let afterTiny := exactTiny && (roundAt mode neg m x (e - f.mbits)).1 <<< 1 < 2 ^ (f.mbits + 2) ||
      (exactTiny && e + 1 < f.emin)
    let biased := (z - low).toNat
    let mag := n + biased * 2 ^ f.mbits
    if f.maxCode < mag then ⟨f.overflowCode mode neg, flagOverflow ||| flagInexact, false⟩
    else ⟨s + mag, flagIf inexact flagInexact ||| flagIf (inexact && afterTiny) flagUnderflow, exactTiny⟩

/-- The canonical NaN of a format (R96); zero in a format without one. -/
def Fmt.canonical (f : Fmt) : Nat := f.nan.getD 0
/-- An infinity's code. -/
def Fmt.infinity (f : Fmt) (neg : Bool) : Nat := f.infCode.getD f.canonical + (if neg then f.signBit else 0)

/-! ## Arithmetic -/

/-- An exact result before rounding, with the flags that the operation itself raises. -/
structure Exact where
  num : Num
  flags : BitVec 5
deriving DecidableEq, Repr

/-- Round an exact result. -/
def Exact.round (r : Exact) (f : Fmt) (mode : BitVec 2) : Rounded :=
  match r.num with
  | .nan _ => ⟨f.canonical, r.flags, false⟩
  | .inf neg => ⟨f.infinity neg, r.flags, false⟩
  | .fin neg m x => let y := f.round mode neg m x; { y with flags := y.flags ||| r.flags }

/-- Invalid, if an operand is a signalling NaN (R96). -/
def sigFlags (a b : Num) : BitVec 5 := flagIf (a.isSignalling || b.isSignalling) flagInvalid

/-- The sum, exact; an exact zero of unlike signs is +0, or −0 under RDN. -/
def Num.add (a b : Num) (mode : BitVec 2) : Exact :=
  match a, b with
  | .nan _, _ | _, .nan _ => ⟨.nan false, sigFlags a b⟩
  | .inf p, .inf q => if p = q then ⟨.inf p, 0#5⟩ else ⟨.nan false, flagInvalid⟩
  | .inf p, _ => ⟨.inf p, 0#5⟩
  | _, .inf q => ⟨.inf q, 0#5⟩
  | .fin p m x, .fin q n y =>
    let z := if x < y then x else y
    let sum := signed p (scaleTo m x z) + signed q (scaleTo n y z)
    if sum = 0 then ⟨.fin (if p = q then p else mode == 2#2) 0 z, 0#5⟩
    else ⟨.fin (sum < 0) sum.natAbs z, 0#5⟩
/-- The product, exact. -/
def Num.mul (a b : Num) : Exact :=
  match a, b with
  | .nan _, _ | _, .nan _ => ⟨.nan false, sigFlags a b⟩
  | .inf p, .inf q => ⟨.inf (p != q), 0#5⟩
  | .inf p, .fin q n _ => if n = 0 then ⟨.nan false, flagInvalid⟩ else ⟨.inf (p != q), 0#5⟩
  | .fin p m _, .inf q => if m = 0 then ⟨.nan false, flagInvalid⟩ else ⟨.inf (p != q), 0#5⟩
  | .fin p m x, .fin q n y => ⟨.fin (p != q) (m * n) (x + y), 0#5⟩
/-- a × b + c with one rounding to come. 0 × ∞ is invalid whatever c is. -/
def Num.fma (a b c : Num) (mode : BitVec 2) : Exact :=
  let p := a.mul b
  if p.num.isNan || c.isNan then ⟨.nan false, p.flags ||| sigFlags c c⟩
  else p.num.add c mode
/-- The quotient, to at least 66 + precision bits with a sticky last bit. -/
def Num.div (a b : Num) (f : Fmt) : Exact :=
  match a, b with
  | .nan _, _ | _, .nan _ => ⟨.nan false, sigFlags a b⟩
  | .inf p, .inf _ => ⟨.nan p, flagInvalid⟩
  | .inf p, .fin q _ _ => ⟨.inf (p != q), 0#5⟩
  | .fin p _ _, .inf q => ⟨.fin (p != q) 0 0, 0#5⟩
  | .fin p m x, .fin q n y =>
    if n = 0 then (if m = 0 then ⟨.nan false, flagInvalid⟩ else ⟨.inf (p != q), flagDivZero⟩)
    else
      let k := f.mbits + 4 + Nat.log2 n
      let num := m <<< k
      let quo := num / n
      let sticky := if quo * n = num then 0 else 1
      ⟨.fin (p != q) (2 * quo + sticky) (x - y - k - 1), 0#5⟩

/-- The integer square root, by binary digits from 2^(k−1) down. -/
def isqrt (k n r : Nat) : Nat :=
  match k with
  | 0 => r
  | k + 1 => if (r + 2 ^ k) * (r + 2 ^ k) ≤ n then isqrt k n (r + 2 ^ k) else isqrt k n r

/-- The square root, with a sticky last bit; √−0 = −0. -/
def Num.sqrt (a : Num) (f : Fmt) : Exact :=
  match a with
  | .nan g => ⟨.nan false, flagIf g flagInvalid⟩
  | .inf p => if p then ⟨.nan false, flagInvalid⟩ else ⟨.inf false, 0#5⟩
  | .fin p m x =>
    if m = 0 then ⟨.fin p 0 0, 0#5⟩
    else if p then ⟨.nan false, flagInvalid⟩
    else
      let k := 2 * (f.mbits + 4)
      let k := if (x - k) % 2 = 0 then k else k + 1
      let n := m <<< k
      let r := isqrt (Nat.log2 n / 2 + 1) n 0
      ⟨.fin false (2 * r + (if r * r = n then 0 else 1)) ((x - k) / 2 - 1), 0#5⟩

/-- minimumNumber and maximumNumber, −0 below +0 (R97). The result is one operand's number, or a NaN. -/
def Num.minMax (a b : Num) (wantMax : Bool) : Exact :=
  let fl := sigFlags a b
  match a, b with
  | .nan _, .nan _ => ⟨.nan false, fl⟩
  | .nan _, y => ⟨y, fl⟩
  | x, .nan _ => ⟨x, fl⟩
  | x, y =>
    let less := x.compare y == .lt || (x.compare y == .eq && x.negative)
    ⟨if less != wantMax then x else y, fl⟩

/-- An ordered test; `quiet` tests raise invalid for a signalling NaN alone (R97, R151). -/
def Num.test (a b : Num) (quiet : Bool) (p : Ordering → Bool) : Bool × BitVec 5 :=
  if a.isNan || b.isNan then (false, if quiet then sigFlags a b else flagInvalid)
  else (p (a.compare b), 0#5)

/-- Round to an integer and clamp to a range; NaN gives 0; NaN and out of range raise invalid alone (R98). -/
def Num.toInt (a : Num) (mode : BitVec 2) (low high : Int) : Int × BitVec 5 :=
  match a with
  | .nan _ => (0, flagInvalid)
  | .inf p => (if p then low else high, flagInvalid)
  | .fin p m x =>
    let (n, inexact) := roundAt mode p m x 0
    let v := signed p n
    if v < low then (low, flagInvalid) else if high < v then (high, flagInvalid)
    else (v, flagIf inexact flagInexact)

/-- An integer as a number. -/
def Num.ofInt (i : Int) : Num := .fin (i < 0) i.natAbs 0

/-- Convert a number to a format with SAT (R98). DESIGN CHOICE (log 31): R98 and R99 state the flags of an integer destination
alone. A finite number that SAT clamps raises the overflow and inexact of its rounding; an infinite operand raises no flag,
whether it stays infinite, is clamped, or becomes the NaN of E4M3. -/
def Num.convert (a : Num) (f : Fmt) (mode : BitVec 2) (sat : Bool) : Rounded :=
  match a with
  | .nan g => ⟨f.canonical, flagIf g flagInvalid, false⟩
  | .inf p =>
    if sat then ⟨f.maxCode + (if p then f.signBit else 0), 0#5, false⟩
    else ⟨match f.infCode with | some _ => f.infinity p | none => f.canonical, 0#5, false⟩
  | .fin p m x =>
    let r := f.round mode p m x
    if sat && (r.flags &&& flagOverflow) != 0#5 then { r with code := f.maxCode + (if p then f.signBit else 0) } else r

end Sys2Proof.Machine
end

