-- ==== Sys2Proof/Machine/Forms.lean ====
section
/-!
DEFINITION. What a slot is made of: the lanes, the operand forms of spec/07 with their fields, the mnemonics that have an
encoding, and what events carry.
-/

namespace Sys2Proof

/-- The fourteen lanes, in lane order (Table 7.1). -/
inductive Lane where
  | sa | sb | va | vb | vc | fn | so | ma | mb | mx | zs | sh | jq | cf
deriving DecidableEq, Repr

/-- The engines that run commands as chunks (R54), in the agent order of R56. -/
inductive Engine where
  | matrix | shuttle | jacquard | fill
deriving DecidableEq, Repr

/-- Who issues picks: the loom's merge stage (R28) or a tenancy's stream sequencer (R275). -/
inductive Issuer where
  | loom (n : Nat)
  | stream (tenancy : Nat)
deriving DecidableEq, Repr

/-- sa, sb with I = 0: D, A, B (Table 7.3). -/
structure ScalarReg where
  h : Bool
  d : BitVec 6
  a : BitVec 6
  b : BitVec 6
deriving DecidableEq, Repr

/-- sa, sb with I = 1: the 22-bit immediate, sign-extended from imm12 without lent bits (R113). -/
structure ScalarImm where
  h : Bool
  d : BitVec 6
  a : BitVec 6
  imm : BitVec 22
deriving DecidableEq, Repr

/-- Unary forms: I = 0 and B = 0 (R148). -/
structure ScalarUnary where
  h : Bool
  d : BitVec 6
  a : BitVec 6
deriving DecidableEq, Repr

/-- csel and bins with I = 0; `c` is none without lent bits, and C is then D (R115). -/
structure ScalarSel where
  h : Bool
  d : BitVec 6
  a : BitVec 6
  b : BitVec 6
  c : Option (BitVec 6)
deriving DecidableEq, Repr

/-- movi, movk, and segq and rdcnt with I = 1: A = 0 and an immediate of 22 bits. -/
structure ScalarConst where
  h : Bool
  d : BitVec 6
  imm : BitVec 22
deriving DecidableEq, Repr

/-- segq and rdcnt with I = 0: A = 0 (Table 9.4). -/
structure ScalarQuery where
  h : Bool
  d : BitVec 6
  b : BitVec 6
deriving DecidableEq, Repr

/-- rdsys, whoami, lidx: A = 0, I = 1, a number in imm12 (R115). -/
structure ScalarNum where
  h : Bool
  d : BitVec 6
  num : BitVec 12
deriving DecidableEq, Repr

/-- wrsys: D = 0, I = 1, the register number in imm12. -/
structure ScalarWrsys where
  h : Bool
  a : BitVec 6
  num : BitVec 12
deriving DecidableEq, Repr

/-- rdtok, rdtag. -/
structure ScalarDest where
  h : Bool
  d : BitVec 6
deriving DecidableEq, Repr

/-- The lent bits of a vector slot: GN, C, and RM, SAT, NB or vcmp's condition (Table 7.7). -/
structure VecLent where
  gn : Bool
  c : BitVec 5
  low : BitVec 4
deriving DecidableEq, Repr

/-- va, vb, vc (Table 7.7). -/
structure VecOps where
  h : Bool
  w : BitVec 2
  t : BitVec 3
  d : BitVec 5
  a : BitVec 7
  b : BitVec 5
  g : BitVec 3
  lent : Option VecLent
deriving DecidableEq, Repr

/-- The lent guard of fn and so: predicate q0 to q23 and its negation (R118). -/
structure LentGuard where
  q : BitVec 5
  neg : Bool
deriving DecidableEq, Repr

/-- fn (Table 7.10). -/
structure FnOps where
  h : Bool
  w : BitVec 2
  t : BitVec 2
  d : BitVec 7
  a : BitVec 7
  b : BitVec 7
  guard : Option LentGuard
deriving DecidableEq, Repr

/-- so (Table 7.10). -/
structure SortOps where
  h : Bool
  w : BitVec 2
  t : BitVec 3
  k : BitVec 7
  p : BitVec 7
  j : BitVec 3
  x : BitVec 3
  guard : Option LentGuard
deriving DecidableEq, Repr

/-- Segment form of ma and mb (Table 7.11). -/
structure MemSeg where
  h : Bool
  e : BitVec 7
  seg : BitVec 12
  o : BitVec 6
  imm6 : BitVec 6
  cl : BitVec 4
deriving DecidableEq, Repr

/-- Cross-tag form (ldx, lvx). -/
structure MemCross where
  h : Bool
  e : BitVec 7
  seg : BitVec 12
  o : BitVec 6
  tagReg : BitVec 6
  cl : BitVec 4
deriving DecidableEq, Repr

/-- Acquire/release form (lacq, srel). -/
structure MemAcq where
  h : Bool
  e : BitVec 7
  seg : BitVec 12
  o : BitVec 6
  scope : BitVec 3
  cl : BitVec 4
deriving DecidableEq, Repr

/-- Fence form. -/
structure FenceOps where
  h : Bool
  mask : BitVec 16
  scope : BitVec 3
  kind : BitVec 2
deriving DecidableEq, Repr

/-- Vault row form (vact; vpre with row 0). -/
structure VaultRow where
  h : Bool
  bank : BitVec 5
  row : BitVec 8
  cl : BitVec 4
deriving DecidableEq, Repr

/-- Vault refresh form. -/
structure VaultRef where
  h : Bool
  bank : BitVec 5
  group : BitVec 3
  cl : BitVec 4
deriving DecidableEq, Repr

/-- Vault column form. -/
structure VaultCol where
  h : Bool
  e : BitVec 7
  bank : BitVec 5
  col : BitVec 6
  ord : BitVec 2
  cl : BitVec 4
deriving DecidableEq, Repr

/-- Remote and far form (vldr, vstr, lfd, sfd). -/
structure MemFar where
  h : Bool
  e : BitVec 7
  o : BitVec 6
  cl : BitVec 4
deriving DecidableEq, Repr

/-- The lent bits of mx, sh and jq: WM, AQ, RL (R120). -/
structure EngLent where
  wm : BitVec 8
  aq : Bool
  rl : Bool
deriving DecidableEq, Repr

/-- mx (Table 7.13). -/
structure MxOps where
  h : Bool
  ac : BitVec 3
  fa : BitVec 3
  fb : BitVec 3
  ra : BitVec 6
  rb : BitVec 6
  tk : BitVec 4
  eng : EngLent
deriving DecidableEq, Repr

/-- zs (Table 7.13). -/
structure ZsOps where
  h : Bool
  ac : BitVec 3
  ra : BitVec 6
  rb : BitVec 6
deriving DecidableEq, Repr

/-- sh (Table 7.13). -/
structure ShOps where
  h : Bool
  rd : BitVec 6
  rs : BitVec 6
  rn : BitVec 6
  sc : BitVec 3
  tk : BitVec 4
  eng : EngLent
deriving DecidableEq, Repr

/-- jq (Table 7.13). -/
structure JqOps where
  h : Bool
  d : BitVec 6
  a : BitVec 6
  b : BitVec 6
  fn : BitVec 4
  tk : BitVec 3
  eng : EngLent
deriving DecidableEq, Repr

/-- What comes back from a far target (R371, R377). -/
inductive FarStatus where
  | ok
  | poisoned      -- the line is poisoned in its tier (R369)
  | uncorrectable -- an uncorrectable tier-2 error (0x903)
  | mismatch      -- a check-value mismatch on arrival (0x904)
  | hostPoisoned  -- a poisoned completion, or a transfer marked poisoned (0x905)
  | targetError   -- UR or CA status, no completion, or a peer that refuses (0x407)
deriving DecidableEq, Repr

/-- A read or write that a peer device makes to this device's tier-2 memory (R271), under the key slot of its entry. -/
structure PeerAccess where
  write : Bool
  key : Nat
  addr : Nat
  bytes : List Byte
  poisoned : Bool
deriving DecidableEq, Repr

/-- A host posted write through the memory aperture of a virtual function (R393), or to host memory itself. -/
structure HostWrite where
  tenancy : Nat
  toHost : Bool
  addr : Nat
  bytes : List Byte
  relaxed : Bool
deriving DecidableEq, Repr

/-- A unit of the boot record (Table 28.6). -/
inductive BootUnit where
  | config | firmware | pcie
  | hbm (k : Nat)
  | loom (l : Nat)
  | remap (l : Nat)
  | link (j : Nat)
  | record       -- the flash copy of the record that a start writes (R401)
deriving DecidableEq, Repr

/-- What fails during one device start: a unit's primary or alternate, or a flash copy of the record (R401). -/
structure BootFailure where
  unit : BootUnit
  alternate : Bool
deriving DecidableEq, Repr

/-- A membership body presented for signature (R293). -/
structure MembershipBody where
  domain : BitVec 16
  n : BitVec 16
  jobid : BitVec 128
  fwhash : BitVec 256
  devids : List (BitVec 256)
deriving DecidableEq, Repr

/-- Number of a lane, 0 to 13 (Table 7.1). -/
def Lane.index (l : Lane) : Nat :=
  match l with
  | .sa => 0 | .sb => 1 | .va => 2 | .vb => 3 | .vc => 4 | .fn => 5 | .so => 6
  | .ma => 7 | .mb => 8 | .mx => 9 | .zs => 10 | .sh => 11 | .jq => 12 | .cf => 13

/-- The forms of Tables 7.3 to 7.13. -/
inductive Form where
  | bare
  | branch
  | callOff
  | reg
  | loopImm
  | loopReg
  | loopQueue
  | repImm
  | repReg
  | waitOn
  | arriveImm
  | arriveReg
  | arrivewImm
  | arrivewReg
  | tokenMask
  | spawn
  | trapCode
  | markStep
  | cqfill
  | cqpush
  | stream
  | scalarReg
  | scalarImm
  | scalarUnary
  | scalarSel
  | scalarConst
  | movk
  | scalarQuery
  | scalarNum
  | scalarWrsys
  | scalarDest
  | vec
  | fn
  | sort
  | memSeg
  | memCross
  | memAcq
  | fence
  | vaultRow
  | vaultRef
  | vaultCol
  | memFar
  | mx
  | zs
  | sh
  | jq
deriving DecidableEq, Repr

/-- The operands of a slot, by form. -/
inductive Operands where
  | bare  -- no operand
  | branch (a : BitVec 6) (n : Bool) (off : BitVec 28)  -- Branch
  | callOff (off : BitVec 28)  -- Branch, A and N zero
  | reg (a : BitVec 6)  -- Reg
  | loopImm (cnt : BitVec 10) (len : BitVec 8)  -- Loop, I = 1
  | loopReg (a : BitVec 6) (len : BitVec 8)  -- Loop, I = 0
  | loopQueue (q : BitVec 2) (len : BitVec 8)  -- Loopq
  | repImm (cnt : BitVec 10) (stride : BitVec 4)  -- Rep, I = 1
  | repReg (a : BitVec 6) (stride : BitVec 4)  -- Rep, I = 0
  | waitOn (bar : BitVec 8) (phase : BitVec 4) (d a : BitVec 6)  -- Wait
  | arriveImm (bar : BitVec 8) (n : BitVec 4)  -- Arrive, I = 1
  | arriveReg (bar : BitVec 8) (a : BitVec 6)  -- Arrive, I = 0
  | arrivewImm (bar : BitVec 8) (n : BitVec 4) (d : BitVec 6)  -- Arrive with D, I = 1
  | arrivewReg (bar : BitVec 8) (a d : BitVec 6)  -- Arrive with D, I = 0
  | tokenMask (mask : BitVec 8)  -- Mask
  | spawn (target : BitVec 3) (base : BitVec 6) (count : BitVec 4) (entry : BitVec 22)  -- Spawn
  | trapCode (code : BitVec 8)  -- Code
  | markStep (mstep : BitVec 34)  -- Mark
  | cqfill (q : BitVec 2) (seg : BitVec 12) (o : BitVec 6) (cnt : BitVec 5)  -- Cqfill
  | cqpush (q : BitVec 2) (a : BitVec 6)  -- Cqpush
  | stream (a b : BitVec 6)  -- Stream
  | scalarReg (o : ScalarReg)  -- Table 7.3, I = 0
  | scalarImm (o : ScalarImm)  -- Table 7.3, I = 1
  | scalarUnary (o : ScalarUnary)  -- unary, I = 0 and B = 0
  | scalarSel (o : ScalarSel)  -- csel and bins with I = 0: C is lent, or D (R148)
  | scalarConst (o : ScalarConst)  -- A = 0, I = 1
  | movk (o : ScalarConst)  -- movk: absent lent bits read as zero (R150)
  | scalarQuery (o : ScalarQuery)  -- A = 0, I = 0
  | scalarNum (o : ScalarNum)  -- a number in imm12
  | scalarWrsys (o : ScalarWrsys)  -- wrsys
  | scalarDest (o : ScalarDest)  -- D alone
  | vec (o : VecOps)  -- Table 7.7
  | fn (o : FnOps)  -- Table 7.10, fn
  | sort (o : SortOps)  -- Table 7.10, so
  | memSeg (o : MemSeg)  -- Segment
  | memCross (o : MemCross)  -- Cross-tag
  | memAcq (o : MemAcq)  -- Acquire/release
  | fence (o : FenceOps)  -- Fence
  | vaultRow (o : VaultRow)  -- Vault row
  | vaultRef (o : VaultRef)  -- Vault refresh
  | vaultCol (o : VaultCol)  -- Vault column
  | memFar (o : MemFar)  -- Remote and far
  | mx (o : MxOps)  -- Table 7.13, mx
  | zs (o : ZsOps)  -- Table 7.13, zs
  | sh (o : ShOps)  -- Table 7.13, sh
  | jq (o : JqOps)  -- Table 7.13, jq
deriving DecidableEq, Repr

/-- The operations that a slot can hold (Tables 7.4 to 7.14); an immediate form has a name of its own. -/
inductive Mnemonic where
  | nop
  | add
  | addImm
  | sub
  | subImm
  | mul
  | mulImm
  | mulh
  | mulhImm
  | mulhu
  | mulhuImm
  | div
  | divImm
  | divu
  | divuImm
  | rem
  | remImm
  | remu
  | remuImm
  | and
  | andImm
  | or
  | orImm
  | xor
  | xorImm
  | andn
  | andnImm
  | shl
  | shlImm
  | shr
  | shrImm
  | sar
  | sarImm
  | rol
  | rolImm
  | min
  | minImm
  | max
  | maxImm
  | minu
  | minuImm
  | maxu
  | maxuImm
  | seq
  | seqImm
  | sne
  | sneImm
  | slt
  | sltImm
  | sltu
  | sltuImm
  | sle
  | sleImm
  | sleu
  | sleuImm
  | csel
  | cselImm
  | movi
  | movk
  | clz
  | ctz
  | popc
  | bext
  | bextImm
  | bins
  | binsImm
  | sext
  | sextImm
  | fadd64
  | fsub64
  | fmul64
  | fdiv64
  | fmin64
  | fmax64
  | feq
  | flt
  | fle
  | fcvtfi
  | fcvtif
  | fsqrt64
  | rdsys
  | wrsys
  | segq
  | segqImm
  | whoami
  | rdcnt
  | rdcntImm
  | lidx
  | rdtok
  | rdtag
  | brc
  | call
  | jmp
  | calli
  | ret
  | loop
  | loopReg
  | loopq
  | brkl
  | rep
  | repReg
  | wait
  | arrive
  | arriveReg
  | arrivew
  | arrivewReg
  | dtwait
  | spawn
  | halt
  | trap
  | mark
  | yield
  | taga
  | tret
  | tfold
  | tset
  | cqfill
  | cqpush
  | launch
  | waitw
  | signal
  | fadd
  | fsub
  | fmul
  | fma
  | fmin
  | fmax
  | fabs
  | fneg
  | iadd
  | isub
  | imul
  | imulh
  | iand
  | ior
  | ixor
  | ishl
  | ishr
  | isar
  | imin
  | imax
  | iminu
  | imaxu
  | iaddi
  | idot4
  | vcmp
  | vsel
  | vmov
  | vbcs
  | vidx
  | vshuf
  | vrot
  | vcat
  | vred
  | vscan
  | vput
  | vcvt
  | vpack
  | vunpk
  | vmaxe
  | vqnt
  | vdeq
  | vrmm
  | pand
  | por
  | pxor
  | pnot
  | pmov
  | vclass
  | vrnd
  | frcp
  | frsqrt
  | fnFsqrt
  | fnFdiv
  | fexp2
  | flog2
  | fexp
  | flog
  | fsin
  | fcos
  | ftanh
  | fsigm
  | ferf
  | scxd
  | scxa
  | scxb
  | scx2d
  | scx2a
  | lb
  | lbu
  | lh
  | lhu
  | lw
  | lwu
  | ld
  | sb
  | sh
  | sw
  | sd
  | lvW256
  | lvW512
  | lvW1024
  | svW256
  | svW512
  | svW1024
  | lvg
  | svg
  | ldx
  | lvx
  | aadd
  | afadd
  | amin
  | amax
  | aminu
  | amaxu
  | aand
  | aor
  | axor
  | axch
  | acas
  | aadd64
  | axch64
  | acas64
  | fence
  | lacq
  | srel
  | binit
  | bbind
  | btx
  | vact
  | vpre
  | vref
  | vld
  | vst
  | vldr
  | vstr
  | lfd
  | sfd
  | mma
  | mmaz
  | mmag
  | mzero
  | mdrain
  | mshape
  | mwin
  | mmaw
  | mload
  | zld
  | zadd
  | zset
  | copy
  | mcast
  | reduce
  | post
  | recall
  | pushout
  | fill
  | gthr
  | sctr
  | vxfer
  | copyb
  | jcfg
  | jord
  | jvar
  | jmk
  | japp
  | jite
  | jres
  | jexq
  | jcnt
  | jsat
  | jexp
  | jref
  | jdrf
  | jgc
  | jstat
  | jclr
deriving DecidableEq, Repr

/-- A decoded slot: an operation and its operands. -/
structure Slot where
  m : Mnemonic
  o : Operands
deriving DecidableEq, Repr

end Sys2Proof
end

