-- ==== Sys2Proof/Syntax.lean ====
section
/-!
DEFINITION. The instruction set, whole: one constructor of `Instr` for each row of spec/opcode_table.json. A slot
operation carries the fields of its word and of its lent bits (R114 to R121); an event carries what the agent that
causes it says. The meaning of each is in Sys2Proof/Machine; the lane of a slot is the machine's, not the word's.
-/

namespace Sys2Proof

/-- One constructor for each row of the opcode table, in the table's order. -/
inductive Instr where
  | pickIssue (agent : Issuer)
  | subnormalReplay (loom seq : Nat)
  | nop
  | add (o : ScalarReg)
  | addImm (o : ScalarImm)
  | sub (o : ScalarReg)
  | subImm (o : ScalarImm)
  | mul (o : ScalarReg)
  | mulImm (o : ScalarImm)
  | mulh (o : ScalarReg)
  | mulhImm (o : ScalarImm)
  | mulhu (o : ScalarReg)
  | mulhuImm (o : ScalarImm)
  | div (o : ScalarReg)
  | divImm (o : ScalarImm)
  | divu (o : ScalarReg)
  | divuImm (o : ScalarImm)
  | rem (o : ScalarReg)
  | remImm (o : ScalarImm)
  | remu (o : ScalarReg)
  | remuImm (o : ScalarImm)
  | and (o : ScalarReg)
  | andImm (o : ScalarImm)
  | or (o : ScalarReg)
  | orImm (o : ScalarImm)
  | xor (o : ScalarReg)
  | xorImm (o : ScalarImm)
  | andn (o : ScalarReg)
  | andnImm (o : ScalarImm)
  | shl (o : ScalarReg)
  | shlImm (o : ScalarImm)
  | shr (o : ScalarReg)
  | shrImm (o : ScalarImm)
  | sar (o : ScalarReg)
  | sarImm (o : ScalarImm)
  | rol (o : ScalarReg)
  | rolImm (o : ScalarImm)
  | min (o : ScalarReg)
  | minImm (o : ScalarImm)
  | max (o : ScalarReg)
  | maxImm (o : ScalarImm)
  | minu (o : ScalarReg)
  | minuImm (o : ScalarImm)
  | maxu (o : ScalarReg)
  | maxuImm (o : ScalarImm)
  | seq (o : ScalarReg)
  | seqImm (o : ScalarImm)
  | sne (o : ScalarReg)
  | sneImm (o : ScalarImm)
  | slt (o : ScalarReg)
  | sltImm (o : ScalarImm)
  | sltu (o : ScalarReg)
  | sltuImm (o : ScalarImm)
  | sle (o : ScalarReg)
  | sleImm (o : ScalarImm)
  | sleu (o : ScalarReg)
  | sleuImm (o : ScalarImm)
  | csel (o : ScalarSel)
  | cselImm (o : ScalarImm)
  | movi (o : ScalarConst)
  | movk (o : ScalarConst)
  | clz (o : ScalarUnary)
  | ctz (o : ScalarUnary)
  | popc (o : ScalarUnary)
  | bext (o : ScalarReg)
  | bextImm (o : ScalarImm)
  | bins (o : ScalarSel)
  | binsImm (o : ScalarImm)
  | sext (o : ScalarReg)
  | sextImm (o : ScalarImm)
  | fadd64 (o : ScalarReg)
  | fsub64 (o : ScalarReg)
  | fmul64 (o : ScalarReg)
  | fdiv64 (o : ScalarReg)
  | fmin64 (o : ScalarReg)
  | fmax64 (o : ScalarReg)
  | feq (o : ScalarReg)
  | flt (o : ScalarReg)
  | fle (o : ScalarReg)
  | fcvtfi (o : ScalarUnary)
  | fcvtif (o : ScalarUnary)
  | fsqrt64 (o : ScalarUnary)
  | rdsys (o : ScalarNum)
  | wrsys (o : ScalarWrsys)
  | segq (o : ScalarQuery)
  | segqImm (o : ScalarConst)
  | whoami (o : ScalarNum)
  | rdcnt (o : ScalarQuery)
  | rdcntImm (o : ScalarConst)
  | lidx (o : ScalarNum)
  | rdtok (o : ScalarDest)
  | rdtag (o : ScalarDest)
  | brc (a : BitVec 6) (n : Bool) (off : BitVec 28)
  | call (off : BitVec 28)
  | jmp (a : BitVec 6)
  | calli (a : BitVec 6)
  | ret
  | loop (cnt : BitVec 10) (len : BitVec 8)
  | loopReg (a : BitVec 6) (len : BitVec 8)
  | loopq (q : BitVec 2) (len : BitVec 8)
  | brkl
  | rep (cnt : BitVec 10) (stride : BitVec 4)
  | repReg (a : BitVec 6) (stride : BitVec 4)
  | wait (bar : BitVec 8) (phase : BitVec 4) (d a : BitVec 6)
  | arrive (bar : BitVec 8) (n : BitVec 4)
  | arriveReg (bar : BitVec 8) (a : BitVec 6)
  | arrivew (bar : BitVec 8) (n : BitVec 4) (d : BitVec 6)
  | arrivewReg (bar : BitVec 8) (a d : BitVec 6)
  | dtwait (mask : BitVec 8)
  | spawn (seq : BitVec 3) (base : BitVec 6) (count : BitVec 4) (entry : BitVec 22)
  | halt
  | trap (code : BitVec 8)
  | mark (mstep : BitVec 34)
  | yield
  | taga (d : BitVec 6)
  | tret (a : BitVec 6)
  | tfold (a : BitVec 6)
  | tset (a : BitVec 6)
  | cqfill (q : BitVec 2) (seg : BitVec 12) (o : BitVec 6) (cnt : BitVec 5)
  | cqpush (q : BitVec 2) (a : BitVec 6)
  | launch (a b : BitVec 6)
  | waitw (a b : BitVec 6)
  | signal (a b : BitVec 6)
  | fadd (o : VecOps)
  | fsub (o : VecOps)
  | fmul (o : VecOps)
  | fma (o : VecOps)
  | fmin (o : VecOps)
  | fmax (o : VecOps)
  | fabs (o : VecOps)
  | fneg (o : VecOps)
  | iadd (o : VecOps)
  | isub (o : VecOps)
  | imul (o : VecOps)
  | imulh (o : VecOps)
  | iand (o : VecOps)
  | ior (o : VecOps)
  | ixor (o : VecOps)
  | ishl (o : VecOps)
  | ishr (o : VecOps)
  | isar (o : VecOps)
  | imin (o : VecOps)
  | imax (o : VecOps)
  | iminu (o : VecOps)
  | imaxu (o : VecOps)
  | iaddi (o : VecOps)
  | idot4 (o : VecOps)
  | vcmp (o : VecOps)
  | vsel (o : VecOps)
  | vmov (o : VecOps)
  | vbcs (o : VecOps)
  | vidx (o : VecOps)
  | vshuf (o : VecOps)
  | vrot (o : VecOps)
  | vcat (o : VecOps)
  | vred (o : VecOps)
  | vscan (o : VecOps)
  | vput (o : VecOps)
  | vcvt (o : VecOps)
  | vpack (o : VecOps)
  | vunpk (o : VecOps)
  | vmaxe (o : VecOps)
  | vqnt (o : VecOps)
  | vdeq (o : VecOps)
  | vrmm (o : VecOps)
  | pand (o : VecOps)
  | por (o : VecOps)
  | pxor (o : VecOps)
  | pnot (o : VecOps)
  | pmov (o : VecOps)
  | vclass (o : VecOps)
  | vrnd (o : VecOps)
  | frcp (o : FnOps)
  | frsqrt (o : FnOps)
  | fnFsqrt (o : FnOps)
  | fnFdiv (o : FnOps)
  | fexp2 (o : FnOps)
  | flog2 (o : FnOps)
  | fexp (o : FnOps)
  | flog (o : FnOps)
  | fsin (o : FnOps)
  | fcos (o : FnOps)
  | ftanh (o : FnOps)
  | fsigm (o : FnOps)
  | ferf (o : FnOps)
  | scxd (o : SortOps)
  | scxa (o : SortOps)
  | scxb (o : SortOps)
  | scx2d (o : SortOps)
  | scx2a (o : SortOps)
  | lb (o : MemSeg)
  | lbu (o : MemSeg)
  | lh (o : MemSeg)
  | lhu (o : MemSeg)
  | lw (o : MemSeg)
  | lwu (o : MemSeg)
  | ld (o : MemSeg)
  | sb (o : MemSeg)
  | sh (o : MemSeg)
  | sw (o : MemSeg)
  | sd (o : MemSeg)
  | lvW256 (o : MemSeg)
  | lvW512 (o : MemSeg)
  | lvW1024 (o : MemSeg)
  | svW256 (o : MemSeg)
  | svW512 (o : MemSeg)
  | svW1024 (o : MemSeg)
  | lvg (o : MemSeg)
  | svg (o : MemSeg)
  | ldx (o : MemCross)
  | lvx (o : MemCross)
  | aadd (o : MemSeg)
  | afadd (o : MemSeg)
  | amin (o : MemSeg)
  | amax (o : MemSeg)
  | aminu (o : MemSeg)
  | amaxu (o : MemSeg)
  | aand (o : MemSeg)
  | aor (o : MemSeg)
  | axor (o : MemSeg)
  | axch (o : MemSeg)
  | acas (o : MemSeg)
  | aadd64 (o : MemSeg)
  | axch64 (o : MemSeg)
  | acas64 (o : MemSeg)
  | fence (o : FenceOps)
  | lacq (o : MemAcq)
  | srel (o : MemAcq)
  | binit (o : MemSeg)
  | bbind (o : MemSeg)
  | btx (o : MemSeg)
  | vact (o : VaultRow)
  | vpre (o : VaultRow)
  | vref (o : VaultRef)
  | vld (o : VaultCol)
  | vst (o : VaultCol)
  | vldr (o : MemFar)
  | vstr (o : MemFar)
  | lfd (o : MemFar)
  | sfd (o : MemFar)
  | mma (o : MxOps)
  | mmaz (o : MxOps)
  | mmag (o : MxOps)
  | mzero (o : MxOps)
  | mdrain (o : MxOps)
  | mshape (o : MxOps)
  | mwin (o : MxOps)
  | mmaw (o : MxOps)
  | mload (o : MxOps)
  | zld (o : ZsOps)
  | zadd (o : ZsOps)
  | zset (o : ZsOps)
  | copy (o : ShOps)
  | mcast (o : ShOps)
  | reduce (o : ShOps)
  | post (o : ShOps)
  | recallSeg (o : ShOps)
  | pushout (o : ShOps)
  | fill (o : ShOps)
  | gthr (o : ShOps)
  | sctr (o : ShOps)
  | vxfer (o : ShOps)
  | copyb (o : ShOps)
  | jcfg (o : JqOps)
  | jord (o : JqOps)
  | jvar (o : JqOps)
  | jmk (o : JqOps)
  | japp (o : JqOps)
  | jite (o : JqOps)
  | jres (o : JqOps)
  | jexq (o : JqOps)
  | jcnt (o : JqOps)
  | jsat (o : JqOps)
  | jexp (o : JqOps)
  | jref (o : JqOps)
  | jdrf (o : JqOps)
  | jgc (o : JqOps)
  | jstat (o : JqOps)
  | jclr (o : JqOps)
  | chunkGrant (loom : Nat) (eng : Engine)
  | chunkRetire (loom : Nat) (eng : Engine)
  | engineCommandComplete (loom : Nat) (eng : Engine)
  | partialSumArrival (loom : Nat)
  | handlerStart (loom : Nat)
  | spindleTransferComplete (loom : Nat)
  | allocationComplete (loom : Nat)
  | overlayMaterialise (loom : Nat)
  | tagGrant (cluster tenancy : Nat)
  | tagFreed (cluster tenancy : Nat) (tag : BitVec 12)
  | arrivalUpdate (loom : Nat)
  | waitTimeout (loom seq : Nat)
  | refreshDeadline (loom bank group : Nat)
  | vaultTemperatureChange (loom band : Nat)
  | sharedBankServe (loom : Nat)
  | farReadCompletion (read : Nat) (status : FarStatus)
  | farCompletionTimeout (read : Nat)
  | farWritePerform (stack : Nat) (accepted : Bool)
  | peerAccessArrival (access : PeerAccess)
  | reducePartnerTimeout (loom : Nat)
  | containment (loom : Nat)
  | loomReset (loom : Nat)
  | loomResetComplete (loom : Nat)
  | launchBlockReadDone (launch : Nat) (status : FarStatus)
  | launchBlockRefetch (launch : Nat)
  | launchCopiesDone (launch : Nat) (status : FarStatus)
  | launchStart (launch : Nat)
  | launchComplete (launch : Nat)
  | watchedWordChange (tenancy : Nat)
  | quantumExpiry (loom : Nat)
  | fullSwitch (loom : Nat)
  | switchInComplete (loom : Nat)
  | spcWrite (tenancy : Nat) (value : DWord)
  | shalt (tenancy : Nat) (value : DWord)
  | snapgo (tenancy : Nat) (value : DWord)
  | snapshotComplete (tenancy : Nat) (verifies : Nat)
  | sresume (tenancy : Nat) (value : DWord)
  | sresumeRelaunch (tenancy : Nat)
  | registerWrite (tenancy : Nat) (offset : Nat) (value : DWord)
  | dbgloomWrite (tenancy : Nat) (value : DWord)
  | dbgresume (tenancy : Nat) (value : DWord)
  | compWrite (tenancy comparator : Nat) (value : DWord)
  | dumpgo (tenancy : Nat) (value : DWord)
  | dumpComplete (tenancy : Nat)
  | dumpAbandon (tenancy sent : Nat)
  | fltack (tenancy : Nat) (value : DWord)
  | fltretry (tenancy : Nat) (value : DWord)
  | fltend (tenancy : Nat) (value : DWord)
  | hostPostedWrite (write : HostWrite)
  | hostReadRequest (tenancy addr size : Nat) (relaxed : Bool)
  | functionLevelReset (tenancy : Nat)
  | deviceReset
  | deviceBoot (failures : List BootFailure)
  | bootRecordClear (unit : BootUnit)
  | membershipSign (body : MembershipBody) (verifies : Nat)
  | weightSet (loom tenancy : Nat) (weight : BitVec 8)
  | partitionAssign (tenancy : Nat) (clusters : List Nat)
  | keySlotLoad (slot : BitVec 13) (key : BitVec 512)
  | domainJoin (domain : BitVec 16) (device : BitVec 12)
  | controllerRefreshEnd (loom bank : Nat)
deriving DecidableEq, Repr

end Sys2Proof
end

