-- ==== Sys2Proof/Machine/SlotCheck.lean ====
section
/-!
DEFINITION. Every fault of Tables 23.2, 23.3 and 24.5 and of R341 that the fields of a slot decide alone, by its code, and
the forms of the mnemonics. The codes that need the sequencer (0x107 in a stream program, 0x108, 0x10A, 0x10D) are
decided where a pick is checked (R326).
-/

namespace Sys2Proof

/-- The form of each mnemonic (Tables 7.3 to 7.13). -/
def Mnemonic.form (m : Mnemonic) : Form :=
  match m with
  | .nop => .bare
  | .add => .scalarReg
  | .addImm => .scalarImm
  | .sub => .scalarReg
  | .subImm => .scalarImm
  | .mul => .scalarReg
  | .mulImm => .scalarImm
  | .mulh => .scalarReg
  | .mulhImm => .scalarImm
  | .mulhu => .scalarReg
  | .mulhuImm => .scalarImm
  | .div => .scalarReg
  | .divImm => .scalarImm
  | .divu => .scalarReg
  | .divuImm => .scalarImm
  | .rem => .scalarReg
  | .remImm => .scalarImm
  | .remu => .scalarReg
  | .remuImm => .scalarImm
  | .and => .scalarReg
  | .andImm => .scalarImm
  | .or => .scalarReg
  | .orImm => .scalarImm
  | .xor => .scalarReg
  | .xorImm => .scalarImm
  | .andn => .scalarReg
  | .andnImm => .scalarImm
  | .shl => .scalarReg
  | .shlImm => .scalarImm
  | .shr => .scalarReg
  | .shrImm => .scalarImm
  | .sar => .scalarReg
  | .sarImm => .scalarImm
  | .rol => .scalarReg
  | .rolImm => .scalarImm
  | .min => .scalarReg
  | .minImm => .scalarImm
  | .max => .scalarReg
  | .maxImm => .scalarImm
  | .minu => .scalarReg
  | .minuImm => .scalarImm
  | .maxu => .scalarReg
  | .maxuImm => .scalarImm
  | .seq => .scalarReg
  | .seqImm => .scalarImm
  | .sne => .scalarReg
  | .sneImm => .scalarImm
  | .slt => .scalarReg
  | .sltImm => .scalarImm
  | .sltu => .scalarReg
  | .sltuImm => .scalarImm
  | .sle => .scalarReg
  | .sleImm => .scalarImm
  | .sleu => .scalarReg
  | .sleuImm => .scalarImm
  | .csel => .scalarSel
  | .cselImm => .scalarImm
  | .movi => .scalarConst
  | .movk => .movk
  | .clz => .scalarUnary
  | .ctz => .scalarUnary
  | .popc => .scalarUnary
  | .bext => .scalarReg
  | .bextImm => .scalarImm
  | .bins => .scalarSel
  | .binsImm => .scalarImm
  | .sext => .scalarReg
  | .sextImm => .scalarImm
  | .fadd64 => .scalarReg
  | .fsub64 => .scalarReg
  | .fmul64 => .scalarReg
  | .fdiv64 => .scalarReg
  | .fmin64 => .scalarReg
  | .fmax64 => .scalarReg
  | .feq => .scalarReg
  | .flt => .scalarReg
  | .fle => .scalarReg
  | .fcvtfi => .scalarUnary
  | .fcvtif => .scalarUnary
  | .fsqrt64 => .scalarUnary
  | .rdsys => .scalarNum
  | .wrsys => .scalarWrsys
  | .segq => .scalarQuery
  | .segqImm => .scalarConst
  | .whoami => .scalarNum
  | .rdcnt => .scalarQuery
  | .rdcntImm => .scalarConst
  | .lidx => .scalarNum
  | .rdtok => .scalarDest
  | .rdtag => .scalarDest
  | .brc => .branch
  | .call => .callOff
  | .jmp => .reg
  | .calli => .reg
  | .ret => .bare
  | .loop => .loopImm
  | .loopReg => .loopReg
  | .loopq => .loopQueue
  | .brkl => .bare
  | .rep => .repImm
  | .repReg => .repReg
  | .wait => .waitOn
  | .arrive => .arriveImm
  | .arriveReg => .arriveReg
  | .arrivew => .arrivewImm
  | .arrivewReg => .arrivewReg
  | .dtwait => .tokenMask
  | .spawn => .spawn
  | .halt => .bare
  | .trap => .trapCode
  | .mark => .markStep
  | .yield => .bare
  | .taga => .reg
  | .tret => .reg
  | .tfold => .reg
  | .tset => .reg
  | .cqfill => .cqfill
  | .cqpush => .cqpush
  | .launch => .stream
  | .waitw => .stream
  | .signal => .stream
  | .fadd => .vec
  | .fsub => .vec
  | .fmul => .vec
  | .fma => .vec
  | .fmin => .vec
  | .fmax => .vec
  | .fabs => .vec
  | .fneg => .vec
  | .iadd => .vec
  | .isub => .vec
  | .imul => .vec
  | .imulh => .vec
  | .iand => .vec
  | .ior => .vec
  | .ixor => .vec
  | .ishl => .vec
  | .ishr => .vec
  | .isar => .vec
  | .imin => .vec
  | .imax => .vec
  | .iminu => .vec
  | .imaxu => .vec
  | .iaddi => .vec
  | .idot4 => .vec
  | .vcmp => .vec
  | .vsel => .vec
  | .vmov => .vec
  | .vbcs => .vec
  | .vidx => .vec
  | .vshuf => .vec
  | .vrot => .vec
  | .vcat => .vec
  | .vred => .vec
  | .vscan => .vec
  | .vput => .vec
  | .vcvt => .vec
  | .vpack => .vec
  | .vunpk => .vec
  | .vmaxe => .vec
  | .vqnt => .vec
  | .vdeq => .vec
  | .vrmm => .vec
  | .pand => .vec
  | .por => .vec
  | .pxor => .vec
  | .pnot => .vec
  | .pmov => .vec
  | .vclass => .vec
  | .vrnd => .vec
  | .frcp => .fn
  | .frsqrt => .fn
  | .fnFsqrt => .fn
  | .fnFdiv => .fn
  | .fexp2 => .fn
  | .flog2 => .fn
  | .fexp => .fn
  | .flog => .fn
  | .fsin => .fn
  | .fcos => .fn
  | .ftanh => .fn
  | .fsigm => .fn
  | .ferf => .fn
  | .scxd => .sort
  | .scxa => .sort
  | .scxb => .sort
  | .scx2d => .sort
  | .scx2a => .sort
  | .lb => .memSeg
  | .lbu => .memSeg
  | .lh => .memSeg
  | .lhu => .memSeg
  | .lw => .memSeg
  | .lwu => .memSeg
  | .ld => .memSeg
  | .sb => .memSeg
  | .sh => .memSeg
  | .sw => .memSeg
  | .sd => .memSeg
  | .lvW256 => .memSeg
  | .lvW512 => .memSeg
  | .lvW1024 => .memSeg
  | .svW256 => .memSeg
  | .svW512 => .memSeg
  | .svW1024 => .memSeg
  | .lvg => .memSeg
  | .svg => .memSeg
  | .ldx => .memCross
  | .lvx => .memCross
  | .aadd => .memSeg
  | .afadd => .memSeg
  | .amin => .memSeg
  | .amax => .memSeg
  | .aminu => .memSeg
  | .amaxu => .memSeg
  | .aand => .memSeg
  | .aor => .memSeg
  | .axor => .memSeg
  | .axch => .memSeg
  | .acas => .memSeg
  | .aadd64 => .memSeg
  | .axch64 => .memSeg
  | .acas64 => .memSeg
  | .fence => .fence
  | .lacq => .memAcq
  | .srel => .memAcq
  | .binit => .memSeg
  | .bbind => .memSeg
  | .btx => .memSeg
  | .vact => .vaultRow
  | .vpre => .vaultRow
  | .vref => .vaultRef
  | .vld => .vaultCol
  | .vst => .vaultCol
  | .vldr => .memFar
  | .vstr => .memFar
  | .lfd => .memFar
  | .sfd => .memFar
  | .mma => .mx
  | .mmaz => .mx
  | .mmag => .mx
  | .mzero => .mx
  | .mdrain => .mx
  | .mshape => .mx
  | .mwin => .mx
  | .mmaw => .mx
  | .mload => .mx
  | .zld => .zs
  | .zadd => .zs
  | .zset => .zs
  | .copy => .sh
  | .mcast => .sh
  | .reduce => .sh
  | .post => .sh
  | .recall => .sh
  | .pushout => .sh
  | .fill => .sh
  | .gthr => .sh
  | .sctr => .sh
  | .vxfer => .sh
  | .copyb => .sh
  | .jcfg => .jq
  | .jord => .jq
  | .jvar => .jq
  | .jmk => .jq
  | .japp => .jq
  | .jite => .jq
  | .jres => .jq
  | .jexq => .jq
  | .jcnt => .jq
  | .jsat => .jq
  | .jexp => .jq
  | .jref => .jq
  | .jdrf => .jq
  | .jgc => .jq
  | .jstat => .jq
  | .jclr => .jq

/-- OP of each mnemonic (Tables 7.4 to 7.14). -/
def Mnemonic.op (m : Mnemonic) : BitVec 6 :=
  match m with
  | .nop => 0x00#6
  | .add => 0x01#6
  | .addImm => 0x01#6
  | .sub => 0x02#6
  | .subImm => 0x02#6
  | .mul => 0x03#6
  | .mulImm => 0x03#6
  | .mulh => 0x04#6
  | .mulhImm => 0x04#6
  | .mulhu => 0x05#6
  | .mulhuImm => 0x05#6
  | .div => 0x06#6
  | .divImm => 0x06#6
  | .divu => 0x07#6
  | .divuImm => 0x07#6
  | .rem => 0x08#6
  | .remImm => 0x08#6
  | .remu => 0x09#6
  | .remuImm => 0x09#6
  | .and => 0x0A#6
  | .andImm => 0x0A#6
  | .or => 0x0B#6
  | .orImm => 0x0B#6
  | .xor => 0x0C#6
  | .xorImm => 0x0C#6
  | .andn => 0x0D#6
  | .andnImm => 0x0D#6
  | .shl => 0x0E#6
  | .shlImm => 0x0E#6
  | .shr => 0x0F#6
  | .shrImm => 0x0F#6
  | .sar => 0x10#6
  | .sarImm => 0x10#6
  | .rol => 0x11#6
  | .rolImm => 0x11#6
  | .min => 0x12#6
  | .minImm => 0x12#6
  | .max => 0x13#6
  | .maxImm => 0x13#6
  | .minu => 0x14#6
  | .minuImm => 0x14#6
  | .maxu => 0x15#6
  | .maxuImm => 0x15#6
  | .seq => 0x16#6
  | .seqImm => 0x16#6
  | .sne => 0x17#6
  | .sneImm => 0x17#6
  | .slt => 0x18#6
  | .sltImm => 0x18#6
  | .sltu => 0x19#6
  | .sltuImm => 0x19#6
  | .sle => 0x1A#6
  | .sleImm => 0x1A#6
  | .sleu => 0x1B#6
  | .sleuImm => 0x1B#6
  | .csel => 0x1C#6
  | .cselImm => 0x1C#6
  | .movi => 0x1D#6
  | .movk => 0x1E#6
  | .clz => 0x1F#6
  | .ctz => 0x20#6
  | .popc => 0x21#6
  | .bext => 0x22#6
  | .bextImm => 0x22#6
  | .bins => 0x23#6
  | .binsImm => 0x23#6
  | .sext => 0x24#6
  | .sextImm => 0x24#6
  | .fadd64 => 0x25#6
  | .fsub64 => 0x26#6
  | .fmul64 => 0x27#6
  | .fdiv64 => 0x28#6
  | .fmin64 => 0x29#6
  | .fmax64 => 0x2A#6
  | .feq => 0x2B#6
  | .flt => 0x2C#6
  | .fle => 0x2D#6
  | .fcvtfi => 0x2E#6
  | .fcvtif => 0x2F#6
  | .fsqrt64 => 0x30#6
  | .rdsys => 0x31#6
  | .wrsys => 0x32#6
  | .segq => 0x33#6
  | .segqImm => 0x33#6
  | .whoami => 0x34#6
  | .rdcnt => 0x35#6
  | .rdcntImm => 0x35#6
  | .lidx => 0x36#6
  | .rdtok => 0x37#6
  | .rdtag => 0x38#6
  | .brc => 0x01#6
  | .call => 0x02#6
  | .jmp => 0x03#6
  | .calli => 0x04#6
  | .ret => 0x05#6
  | .loop => 0x06#6
  | .loopReg => 0x06#6
  | .loopq => 0x07#6
  | .brkl => 0x08#6
  | .rep => 0x09#6
  | .repReg => 0x09#6
  | .wait => 0x0A#6
  | .arrive => 0x0B#6
  | .arriveReg => 0x0B#6
  | .arrivew => 0x0C#6
  | .arrivewReg => 0x0C#6
  | .dtwait => 0x0D#6
  | .spawn => 0x0E#6
  | .halt => 0x0F#6
  | .trap => 0x10#6
  | .mark => 0x11#6
  | .yield => 0x12#6
  | .taga => 0x13#6
  | .tret => 0x14#6
  | .tfold => 0x15#6
  | .tset => 0x16#6
  | .cqfill => 0x17#6
  | .cqpush => 0x18#6
  | .launch => 0x19#6
  | .waitw => 0x1A#6
  | .signal => 0x1B#6
  | .fadd => 0x01#6
  | .fsub => 0x02#6
  | .fmul => 0x03#6
  | .fma => 0x04#6
  | .fmin => 0x05#6
  | .fmax => 0x06#6
  | .fabs => 0x07#6
  | .fneg => 0x08#6
  | .iadd => 0x09#6
  | .isub => 0x0A#6
  | .imul => 0x0B#6
  | .imulh => 0x0C#6
  | .iand => 0x0D#6
  | .ior => 0x0E#6
  | .ixor => 0x0F#6
  | .ishl => 0x10#6
  | .ishr => 0x11#6
  | .isar => 0x12#6
  | .imin => 0x13#6
  | .imax => 0x14#6
  | .iminu => 0x15#6
  | .imaxu => 0x16#6
  | .iaddi => 0x17#6
  | .idot4 => 0x18#6
  | .vcmp => 0x19#6
  | .vsel => 0x1A#6
  | .vmov => 0x1B#6
  | .vbcs => 0x1C#6
  | .vidx => 0x1D#6
  | .vshuf => 0x1E#6
  | .vrot => 0x1F#6
  | .vcat => 0x20#6
  | .vred => 0x21#6
  | .vscan => 0x22#6
  | .vput => 0x23#6
  | .vcvt => 0x24#6
  | .vpack => 0x25#6
  | .vunpk => 0x26#6
  | .vmaxe => 0x27#6
  | .vqnt => 0x28#6
  | .vdeq => 0x29#6
  | .vrmm => 0x2A#6
  | .pand => 0x2B#6
  | .por => 0x2C#6
  | .pxor => 0x2D#6
  | .pnot => 0x2E#6
  | .pmov => 0x2F#6
  | .vclass => 0x30#6
  | .vrnd => 0x31#6
  | .frcp => 0x01#6
  | .frsqrt => 0x02#6
  | .fnFsqrt => 0x03#6
  | .fnFdiv => 0x04#6
  | .fexp2 => 0x05#6
  | .flog2 => 0x06#6
  | .fexp => 0x07#6
  | .flog => 0x08#6
  | .fsin => 0x09#6
  | .fcos => 0x0A#6
  | .ftanh => 0x0B#6
  | .fsigm => 0x0C#6
  | .ferf => 0x0D#6
  | .scxd => 0x01#6
  | .scxa => 0x02#6
  | .scxb => 0x03#6
  | .scx2d => 0x04#6
  | .scx2a => 0x05#6
  | .lb => 0x01#6
  | .lbu => 0x02#6
  | .lh => 0x03#6
  | .lhu => 0x04#6
  | .lw => 0x05#6
  | .lwu => 0x06#6
  | .ld => 0x07#6
  | .sb => 0x08#6
  | .sh => 0x09#6
  | .sw => 0x0A#6
  | .sd => 0x0B#6
  | .lvW256 => 0x0C#6
  | .lvW512 => 0x0D#6
  | .lvW1024 => 0x0E#6
  | .svW256 => 0x0F#6
  | .svW512 => 0x10#6
  | .svW1024 => 0x11#6
  | .lvg => 0x12#6
  | .svg => 0x13#6
  | .ldx => 0x14#6
  | .lvx => 0x15#6
  | .aadd => 0x16#6
  | .afadd => 0x17#6
  | .amin => 0x18#6
  | .amax => 0x19#6
  | .aminu => 0x1A#6
  | .amaxu => 0x1B#6
  | .aand => 0x1C#6
  | .aor => 0x1D#6
  | .axor => 0x1E#6
  | .axch => 0x1F#6
  | .acas => 0x20#6
  | .aadd64 => 0x21#6
  | .axch64 => 0x22#6
  | .acas64 => 0x23#6
  | .fence => 0x24#6
  | .lacq => 0x25#6
  | .srel => 0x26#6
  | .binit => 0x27#6
  | .bbind => 0x28#6
  | .btx => 0x29#6
  | .vact => 0x2A#6
  | .vpre => 0x2B#6
  | .vref => 0x2C#6
  | .vld => 0x2D#6
  | .vst => 0x2E#6
  | .vldr => 0x2F#6
  | .vstr => 0x30#6
  | .lfd => 0x31#6
  | .sfd => 0x32#6
  | .mma => 0x01#6
  | .mmaz => 0x02#6
  | .mmag => 0x03#6
  | .mzero => 0x04#6
  | .mdrain => 0x05#6
  | .mshape => 0x06#6
  | .mwin => 0x07#6
  | .mmaw => 0x08#6
  | .mload => 0x09#6
  | .zld => 0x01#6
  | .zadd => 0x02#6
  | .zset => 0x03#6
  | .copy => 0x01#6
  | .mcast => 0x02#6
  | .reduce => 0x03#6
  | .post => 0x04#6
  | .recall => 0x05#6
  | .pushout => 0x06#6
  | .fill => 0x07#6
  | .gthr => 0x08#6
  | .sctr => 0x09#6
  | .vxfer => 0x0A#6
  | .copyb => 0x0B#6
  | .jcfg => 0x01#6
  | .jord => 0x02#6
  | .jvar => 0x03#6
  | .jmk => 0x04#6
  | .japp => 0x05#6
  | .jite => 0x06#6
  | .jres => 0x07#6
  | .jexq => 0x08#6
  | .jcnt => 0x09#6
  | .jsat => 0x0A#6
  | .jexp => 0x0B#6
  | .jref => 0x0C#6
  | .jdrf => 0x0D#6
  | .jgc => 0x0E#6
  | .jstat => 0x0F#6
  | .jclr => 0x10#6

/-- A list of codes that holds one code when a condition does. -/
def codeIf (b : Bool) (code : Nat) : List Nat := if b then [code] else []

/-- What the D, A, B and C fields of a vector instruction name (R117, Tables 10.1 to 10.7). -/
inductive FieldKind where
  | zero   -- the field is zero
  | vreg   -- a vector register
  | sreg   -- a scalar register, bit 6 zero
  | pred   -- a predicate register
  | imm    -- part of a number, an operation or a format
deriving DecidableEq, Repr

/-- How one vector instruction reads its slot: its fields, the types it lists, the lent bits it uses (Table 10.12). -/
structure VecForm where
  d : FieldKind
  a : FieldKind
  b : FieldKind
  c : FieldKind
  types : List Nat
  lentMask : BitVec 10
deriving DecidableEq, Repr

/-- The floating-point types f32, bf16, f16. -/
def fpTypes : List Nat := [0, 1, 2]
/-- The integer types i32, i16, i8. -/
def intTypes : List Nat := [5, 6, 7]
/-- Every type of Table 7.7. -/
def allTypes : List Nat := [0, 1, 2, 3, 4, 5, 6, 7]
/-- Element size in bits of type code t (R167). -/
def typeSize (t : Nat) : Nat :=
  match t with
  | 0 => 32 | 5 => 32 | 1 => 16 | 2 => 16 | 6 => 16 | _ => 8
/-- Is t one of the floating-point types f32, bf16, f16, e4m3, e5m2? -/
def isFpType (t : Nat) : Bool := t < 5

/-- Guarded, and nothing else lent (R117): GN alone. -/
def lentGN : BitVec 10 := 0x200#10

/-- The form of each vector mnemonic. -/
def Mnemonic.vecForm (m : Mnemonic) : Option VecForm :=
  match m with
  | .fadd => some ⟨.vreg, .vreg, .vreg, .zero, fpTypes, 0x20D#10⟩
  | .fsub => some ⟨.vreg, .vreg, .vreg, .zero, fpTypes, 0x20D#10⟩
  | .fmul => some ⟨.vreg, .vreg, .vreg, .zero, fpTypes, 0x20D#10⟩
  | .fma => some ⟨.vreg, .vreg, .vreg, .vreg, fpTypes, 0x3FD#10⟩
  | .fmin => some ⟨.vreg, .vreg, .vreg, .zero, fpTypes, 0x200#10⟩
  | .fmax => some ⟨.vreg, .vreg, .vreg, .zero, fpTypes, 0x200#10⟩
  | .fabs => some ⟨.vreg, .vreg, .zero, .zero, [0, 1, 2, 3, 4], 0x200#10⟩
  | .fneg => some ⟨.vreg, .vreg, .zero, .zero, [0, 1, 2, 3, 4], 0x200#10⟩
  | .iadd => some ⟨.vreg, .vreg, .vreg, .zero, intTypes, 0x202#10⟩
  | .isub => some ⟨.vreg, .vreg, .vreg, .zero, intTypes, 0x202#10⟩
  | .imul => some ⟨.vreg, .vreg, .vreg, .zero, intTypes, 0x202#10⟩
  | .imulh => some ⟨.vreg, .vreg, .vreg, .zero, intTypes, 0x200#10⟩
  | .iand => some ⟨.vreg, .vreg, .vreg, .zero, intTypes, 0x200#10⟩
  | .ior => some ⟨.vreg, .vreg, .vreg, .zero, intTypes, 0x200#10⟩
  | .ixor => some ⟨.vreg, .vreg, .vreg, .zero, intTypes, 0x200#10⟩
  | .ishl => some ⟨.vreg, .vreg, .vreg, .zero, intTypes, 0x200#10⟩
  | .ishr => some ⟨.vreg, .vreg, .vreg, .zero, intTypes, 0x200#10⟩
  | .isar => some ⟨.vreg, .vreg, .vreg, .zero, intTypes, 0x200#10⟩
  | .imin => some ⟨.vreg, .vreg, .vreg, .zero, intTypes, 0x200#10⟩
  | .imax => some ⟨.vreg, .vreg, .vreg, .zero, intTypes, 0x200#10⟩
  | .iminu => some ⟨.vreg, .vreg, .vreg, .zero, intTypes, 0x200#10⟩
  | .imaxu => some ⟨.vreg, .vreg, .vreg, .zero, intTypes, 0x200#10⟩
  | .iaddi => some ⟨.vreg, .vreg, .imm, .imm, intTypes, 0x3F2#10⟩
  | .idot4 => some ⟨.vreg, .vreg, .vreg, .vreg, [5], 0x3F2#10⟩
  | .vcmp => some ⟨.pred, .vreg, .vreg, .zero, allTypes, 0x20F#10⟩
  | .vsel => some ⟨.vreg, .vreg, .vreg, .zero, allTypes, 0x200#10⟩
  | .vmov => some ⟨.vreg, .vreg, .zero, .zero, allTypes, 0x200#10⟩
  | .vbcs => some ⟨.vreg, .sreg, .zero, .zero, allTypes, 0x200#10⟩
  | .vidx => some ⟨.vreg, .zero, .imm, .imm, intTypes, 0x3F0#10⟩
  | .vshuf => some ⟨.vreg, .vreg, .vreg, .zero, allTypes, 0x200#10⟩
  | .vrot => some ⟨.vreg, .vreg, .imm, .imm, allTypes, 0x3F0#10⟩
  | .vcat => some ⟨.vreg, .vreg, .vreg, .zero, allTypes, 0x200#10⟩
  | .vred => some ⟨.vreg, .vreg, .imm, .zero, fpTypes ++ intTypes, 0x20E#10⟩
  | .vscan => some ⟨.vreg, .vreg, .imm, .zero, fpTypes ++ intTypes, 0x20E#10⟩
  | .vput => some ⟨.vreg, .sreg, .imm, .imm, allTypes, 0x3F0#10⟩
  | .vcvt => some ⟨.vreg, .vreg, .imm, .zero, allTypes, 0x20E#10⟩
  | .vpack => some ⟨.vreg, .vreg, .vreg, .zero, [5, 6], 0x202#10⟩
  | .vunpk => some ⟨.vreg, .vreg, .imm, .zero, [6, 7], 0x200#10⟩
  | .vmaxe => some ⟨.zero, .vreg, .imm, .zero, fpTypes, 0x200#10⟩
  | .vqnt => some ⟨.vreg, .vreg, .imm, .zero, fpTypes, 0x200#10⟩
  | .vdeq => some ⟨.vreg, .vreg, .imm, .zero, fpTypes, 0x200#10⟩
  | .vrmm => some ⟨.vreg, .zero, .imm, .zero, [0], 0x200#10⟩
  | .pand => some ⟨.pred, .pred, .pred, .zero, [0], 0x200#10⟩
  | .por => some ⟨.pred, .pred, .pred, .zero, [0], 0x200#10⟩
  | .pxor => some ⟨.pred, .pred, .pred, .zero, [0], 0x200#10⟩
  | .pnot => some ⟨.pred, .pred, .zero, .zero, [0], 0x200#10⟩
  | .pmov => some ⟨.pred, .pred, .zero, .zero, [0], 0x200#10⟩
  | .vclass => some ⟨.vreg, .vreg, .zero, .zero, fpTypes, 0x200#10⟩
  | .vrnd => some ⟨.vreg, .vreg, .zero, .zero, fpTypes, 0x20C#10⟩
  | _ => none

/-- The lent bits of a vector slot as they stand, zero without a lend slot. -/
def VecOps.lentBits (o : VecOps) : BitVec 10 :=
  match o.lent with
  | some l => BitVec.ofBool l.gn ++ l.c ++ l.low
  | none => 0#10

/-- Faults of the fields that every vector instruction checks alike: W, T, registers, zero fields, unused lent bits. -/
def vecCommonFaults (f : VecForm) (o : VecOps) (pred : Bool) : List Nat :=
  codeIf (o.w == 3#2) 0x10B
  ++ codeIf (!f.types.contains o.t.toNat) (if pred then 0x105 else 0x10B)
  ++ codeIf (f.a == .vreg && o.a.toNat > 95) 0x109
  ++ codeIf (f.a == .sreg && o.a.toNat > 63) 0x109
  ++ codeIf (f.a == .pred && o.a.toNat > 23) 0x109
  ++ codeIf (f.a == .zero && o.a != 0#7) 0x105
  ++ codeIf (f.b == .pred && o.b.toNat > 7) 0x109
  ++ codeIf (f.b == .zero && o.b != 0#5) 0x105
  ++ codeIf (f.d == .pred && o.d.toNat > 7) 0x109
  ++ codeIf (f.d == .zero && o.d != 0#5) 0x105
  ++ codeIf (o.lentBits &&& ~~~f.lentMask != 0#10) 0x105

/-- vred and vscan (Tables 10.5, 10.12, 24.5). That B from 8 to 31 of an integer type is refused with 0x10B too, as an operation that
the instruction does not list, is DESIGN CHOICE (log 83): R177 gives 0 to 7, and no table names a code for the others. -/
def reduceFaults (o : VecOps) : List Nat :=
  codeIf (isFpType o.t.toNat && o.b.toNat > 2) 0x10B
  ++ codeIf (o.b.toNat > 7) 0x10B
  ++ codeIf (o.b != 0#5 && o.lentBits &&& 0x00E#10 != 0#10) 0x105
  ++ codeIf (!isFpType o.t.toNat && o.lentBits &&& 0x00C#10 != 0#10) 0x105

/-- A format code in B: B[4:3] zero, B[2:0] from 0 to 5 (R117, Table 24.5). -/
def formatFaults (o : VecOps) : List Nat :=
  codeIf (o.b.toNat > 7) 0x105 ++ codeIf (o.b.toNat % 8 > 5) 0x10B

/-- Faults of the values one vector instruction refuses (Table 24.5, Table 10.3). -/
def vecOwnFaults (m : Mnemonic) (o : VecOps) : List Nat :=
  match m with
  | .vcmp =>
    let cond := (o.lentBits &&& 0x00F#10).toNat
    codeIf (if isFpType o.t.toNat then !([0, 1, 2, 3, 4, 5, 10, 11].contains cond) else cond > 9) 0x10B
  | .vcvt =>
    codeIf (o.b.toNat > 7) 0x105
    ++ codeIf (256 * 2 ^ o.w.toNat / typeSize o.t.toNat * typeSize (o.b.toNat % 8) > 1024) 0x10B
  | .vred => reduceFaults o
  | .vscan => reduceFaults o
  | .vunpk => codeIf (o.b.toNat > 3) 0x105
  | .vmaxe => formatFaults o
  | .vqnt => formatFaults o
  | .vdeq => formatFaults o
  | .vrmm => codeIf (o.b.toNat > 1) 0x105
  | _ => []

/-- Is it one of pand, por, pxor, pnot, pmov? -/
def Mnemonic.isPredOp (m : Mnemonic) : Bool :=
  match m with
  | .pand => true | .por => true | .pxor => true | .pnot => true | .pmov => true
  | _ => false

/-- Faults of a vector slot. -/
def vecFaults (m : Mnemonic) (o : VecOps) : List Nat :=
  match m.vecForm with
  | some f => vecCommonFaults f o m.isPredOp ++ vecOwnFaults m o
  | none => []

/-- A lent guard names q0 to q23. -/
def guardFaults (g : Option LentGuard) : List Nat :=
  match g with
  | some g => codeIf (g.q.toNat > 23) 0x109
  | none => []

/-- Faults of an fn slot; `unary` when B is zero (Tables 7.10, 24.5). -/
def fnFaults (o : FnOps) (unary : Bool) : List Nat :=
  codeIf (o.w == 3#2) 0x10B ++ codeIf (o.t == 3#2) 0x10B
  ++ codeIf (o.d.toNat > 95 || o.a.toNat > 95 || (!unary && o.b.toNat > 95)) 0x109
  ++ codeIf (unary && o.b != 0#7) 0x105 ++ guardFaults o.guard

/-- Faults of an so slot; `two` for the 2-forms (Tables 7.10, 23.3, 24.5). -/
def sortFaults (o : SortOps) (two : Bool) : List Nat :=
  codeIf (o.w == 3#2) 0x10B ++ codeIf (o.t.toNat > 4) 0x10B
  ++ codeIf (o.k.toNat > 95 || (o.p.toNat > 95 && o.p.toNat < 127)) 0x109
  ++ codeIf (two && (o.k.toNat == 95 || o.p.toNat == 95)) 0x109
  ++ codeIf (two && (o.j != 0#3 || o.x != 0#3)) 0x105 ++ guardFaults o.guard

/-- E names a scalar: bit 6 zero (R114). -/
def scalarE (e : BitVec 7) : List Nat := codeIf (e.toNat > 63) 0x109
/-- E names a vector register (R114). -/
def vectorE (e : BitVec 7) : List Nat := codeIf (e.toNat > 95) 0x109
/-- E and E + 1 are a pair of one cluster (Table 23.3). -/
def pairE (e : BitVec 7) : List Nat := codeIf (e.toNat == 95) 0x109 ++ codeIf (e.toNat % 32 == 31) 0x111
/-- A scope code of 6 or 7 (R121). -/
def scopeFaults (c : BitVec 3) : List Nat := codeIf (c.toNat > 5) 0x10C
/-- Does a vault column command name a pair of registers (Table 23.3)? -/
def VaultCol.pair (o : VaultCol) : Bool := o.ord == 3#2 && o.col.toNat < 32
/-- vld and vst. -/
def vaultColFaults (o : VaultCol) : List Nat := vectorE o.e ++ (if o.pair then pairE o.e else [])

/-- Output formats of mdrain and mload: FA 0 to 5, FB zero (R120, R219). -/
def tileFaults (o : MxOps) : List Nat := codeIf (o.fa.toNat > 5) 0x10B ++ codeIf (o.fb != 0#3) 0x105
/-- mshape and mwin: AC, FA, FB, TK zero. -/
def stateFaults (o : MxOps) : List Nat :=
  codeIf (o.ac != 0#3 || o.fa != 0#3 || o.fb != 0#3 || o.tk != 0#4) 0x105
/-- An sh slot; `two` when s[RN + 1] is read (Table 23.3). -/
def shFaults (o : ShOps) (two : Bool) : List Nat :=
  scopeFaults o.sc ++ codeIf (two && o.rn == 63#6) 0x109
/-- recall and pushout: RS and RN zero (R230). -/
def segOnlyFaults (o : ShOps) : List Nat := shFaults o false ++ codeIf (o.rs != 0#6 || o.rn != 0#6) 0x105
/-- A jq slot: the fields that it does not use are zero (Table 13.6, R242). -/
def jqFaults (o : JqOps) (useA useB useFn : Bool) : List Nat :=
  codeIf (!useA && o.a != 0#6) 0x105 ++ codeIf (!useB && o.b != 0#6) 0x105
  ++ codeIf (!useFn && o.fn != 0#4) 0x105

/-- System registers that rdsys reads, and those that wrsys writes (Table 9.5). -/
def sysReadable : List Nat := [0x000, 0x001, 0x002, 0x003, 0x004, 0x005, 0x010, 0x011, 0x012, 0x013]
def sysWritable : List Nat := [0x001, 0x005]

/-- Faults of a segment-form slot: what E names (Tables 11.1 to 11.4, 23.3). -/
def memSegFaults (m : Mnemonic) (o : MemSeg) : List Nat :=
  match m with
  | .acas => scalarE o.e ++ codeIf (o.e == 63#7) 0x109
  | .acas64 => scalarE o.e ++ codeIf (o.e == 63#7) 0x109
  | .lvW256 => vectorE o.e | .lvW512 => vectorE o.e | .lvW1024 => vectorE o.e
  | .svW256 => vectorE o.e | .svW512 => vectorE o.e | .svW1024 => vectorE o.e
  | .lvg => vectorE o.e
  | .svg => vectorE o.e ++ pairE o.e
  | _ => scalarE o.e

/-- Faults of an mx slot (Tables 12.2, 12.3, 23.3, R214, R220). -/
def mxFaults (m : Mnemonic) (o : MxOps) : List Nat :=
  match m with
  | .mmag => codeIf (o.ra == 63#6) 0x109
  | .mzero => codeIf (o.fa != 0#3 || o.fb != 0#3 || o.ra != 0#6 || o.rb != 0#6) 0x105
  | .mdrain => tileFaults o
  | .mload => tileFaults o
  | .mshape => stateFaults o
  | .mwin => stateFaults o ++ codeIf (o.rb.toNat > 60) 0x109
  | .mmaw => codeIf (o.ra != 0#6) 0x105
  | _ => []

/-- Faults of a zs slot (Table 12.4). -/
def zsFaults (m : Mnemonic) (o : ZsOps) : List Nat :=
  match m with
  | .zadd => codeIf (o.ra != 0#6 || o.rb != 0#6) 0x105
  | .zset => codeIf (o.rb != 0#6) 0x105
  | _ => []

/-- Faults of an sh slot (Tables 12.7, 23.3, R230). -/
def shuttleFaults (m : Mnemonic) (o : ShOps) : List Nat :=
  match m with
  | .recall => segOnlyFaults o
  | .pushout => segOnlyFaults o
  | .copy => shFaults o false
  | .fill => shFaults o false
  | .vxfer => shFaults o false
  | _ => shFaults o true

/-- Which of A, B and FN a jq operation uses (Table 13.6, R242). -/
def jacquardFaults (m : Mnemonic) (o : JqOps) : List Nat :=
  match m with
  | .jcfg => jqFaults o true true false ++ codeIf (o.a.toNat > 59 || o.b == 63#6) 0x109
  | .jord => jqFaults o false false false
  | .jvar => jqFaults o true false false
  | .jmk => jqFaults o true true false
  | .japp => jqFaults o true true true
  | .jite => jqFaults o true true false
  | .jres => jqFaults o true true false
  | .jexq => jqFaults o true true true
  | .jcnt => jqFaults o true false false
  | .jsat => jqFaults o true true false
  | .jexp => jqFaults o true true false
  | .jref => jqFaults o true false false
  | .jdrf => jqFaults o true false false
  | .jgc => jqFaults o false false false
  | .jstat => jqFaults o true false false
  | .jclr => jqFaults o false false false
  | _ => []

/-- Every encoding fault that the fields of a slot decide alone (R328, R329, R341, Table 24.5). -/
def Slot.faults (s : Slot) : List Nat :=
  match s.o with
  | .movk o => codeIf (o.imm.extractLsb' 16 4 != 0#4) 0x105
  | .scalarNum o =>
    match s.m with
    | .rdsys => codeIf (!sysReadable.contains o.num.toNat) 0x10E
    | .whoami => codeIf (o.num.toNat > 7) 0x112
    | _ => codeIf (o.num.toNat > 5) 0x112
  | .scalarWrsys o => codeIf (!sysWritable.contains o.num.toNat) 0x10E
  | .spawn _ base count _ => codeIf (count.toNat > 8) 0x105 ++ codeIf (base.toNat + count.toNat > 64) 0x109
  | .cqfill _ _ _ cnt => codeIf (cnt.toNat > 15) 0x112
  | .vec o => vecFaults s.m o
  | .fn o => fnFaults o (s.m != .fnFdiv)
  | .sort o => sortFaults o (s.m == .scx2d || s.m == .scx2a)
  | .memSeg o => memSegFaults s.m o
  | .memCross o => if s.m == .ldx then scalarE o.e else vectorE o.e
  | .memAcq o => scalarE o.e ++ scopeFaults o.scope
  | .fence o => scopeFaults o.scope ++ codeIf (o.kind == 3#2) 0x10B
  | .vaultRow o => codeIf (s.m == .vpre && o.row != 0#8) 0x105
  | .vaultCol o => vaultColFaults o
  | .memFar o => if s.m == .vldr || s.m == .vstr then vectorE o.e else scalarE o.e
  | .mx o => mxFaults s.m o
  | .zs o => zsFaults s.m o
  | .sh o => shuttleFaults s.m o
  | .jq o => jacquardFaults s.m o
  | _ => []

/-- The operation and operands of an instruction; none for an event. -/
def Instr.slot (i : Instr) : Option Slot :=
  match i with
  | .nop => some ⟨.nop, .bare⟩
  | .add o => some ⟨.add, .scalarReg o⟩
  | .addImm o => some ⟨.addImm, .scalarImm o⟩
  | .sub o => some ⟨.sub, .scalarReg o⟩
  | .subImm o => some ⟨.subImm, .scalarImm o⟩
  | .mul o => some ⟨.mul, .scalarReg o⟩
  | .mulImm o => some ⟨.mulImm, .scalarImm o⟩
  | .mulh o => some ⟨.mulh, .scalarReg o⟩
  | .mulhImm o => some ⟨.mulhImm, .scalarImm o⟩
  | .mulhu o => some ⟨.mulhu, .scalarReg o⟩
  | .mulhuImm o => some ⟨.mulhuImm, .scalarImm o⟩
  | .div o => some ⟨.div, .scalarReg o⟩
  | .divImm o => some ⟨.divImm, .scalarImm o⟩
  | .divu o => some ⟨.divu, .scalarReg o⟩
  | .divuImm o => some ⟨.divuImm, .scalarImm o⟩
  | .rem o => some ⟨.rem, .scalarReg o⟩
  | .remImm o => some ⟨.remImm, .scalarImm o⟩
  | .remu o => some ⟨.remu, .scalarReg o⟩
  | .remuImm o => some ⟨.remuImm, .scalarImm o⟩
  | .and o => some ⟨.and, .scalarReg o⟩
  | .andImm o => some ⟨.andImm, .scalarImm o⟩
  | .or o => some ⟨.or, .scalarReg o⟩
  | .orImm o => some ⟨.orImm, .scalarImm o⟩
  | .xor o => some ⟨.xor, .scalarReg o⟩
  | .xorImm o => some ⟨.xorImm, .scalarImm o⟩
  | .andn o => some ⟨.andn, .scalarReg o⟩
  | .andnImm o => some ⟨.andnImm, .scalarImm o⟩
  | .shl o => some ⟨.shl, .scalarReg o⟩
  | .shlImm o => some ⟨.shlImm, .scalarImm o⟩
  | .shr o => some ⟨.shr, .scalarReg o⟩
  | .shrImm o => some ⟨.shrImm, .scalarImm o⟩
  | .sar o => some ⟨.sar, .scalarReg o⟩
  | .sarImm o => some ⟨.sarImm, .scalarImm o⟩
  | .rol o => some ⟨.rol, .scalarReg o⟩
  | .rolImm o => some ⟨.rolImm, .scalarImm o⟩
  | .min o => some ⟨.min, .scalarReg o⟩
  | .minImm o => some ⟨.minImm, .scalarImm o⟩
  | .max o => some ⟨.max, .scalarReg o⟩
  | .maxImm o => some ⟨.maxImm, .scalarImm o⟩
  | .minu o => some ⟨.minu, .scalarReg o⟩
  | .minuImm o => some ⟨.minuImm, .scalarImm o⟩
  | .maxu o => some ⟨.maxu, .scalarReg o⟩
  | .maxuImm o => some ⟨.maxuImm, .scalarImm o⟩
  | .seq o => some ⟨.seq, .scalarReg o⟩
  | .seqImm o => some ⟨.seqImm, .scalarImm o⟩
  | .sne o => some ⟨.sne, .scalarReg o⟩
  | .sneImm o => some ⟨.sneImm, .scalarImm o⟩
  | .slt o => some ⟨.slt, .scalarReg o⟩
  | .sltImm o => some ⟨.sltImm, .scalarImm o⟩
  | .sltu o => some ⟨.sltu, .scalarReg o⟩
  | .sltuImm o => some ⟨.sltuImm, .scalarImm o⟩
  | .sle o => some ⟨.sle, .scalarReg o⟩
  | .sleImm o => some ⟨.sleImm, .scalarImm o⟩
  | .sleu o => some ⟨.sleu, .scalarReg o⟩
  | .sleuImm o => some ⟨.sleuImm, .scalarImm o⟩
  | .csel o => some ⟨.csel, .scalarSel o⟩
  | .cselImm o => some ⟨.cselImm, .scalarImm o⟩
  | .movi o => some ⟨.movi, .scalarConst o⟩
  | .movk o => some ⟨.movk, .movk o⟩
  | .clz o => some ⟨.clz, .scalarUnary o⟩
  | .ctz o => some ⟨.ctz, .scalarUnary o⟩
  | .popc o => some ⟨.popc, .scalarUnary o⟩
  | .bext o => some ⟨.bext, .scalarReg o⟩
  | .bextImm o => some ⟨.bextImm, .scalarImm o⟩
  | .bins o => some ⟨.bins, .scalarSel o⟩
  | .binsImm o => some ⟨.binsImm, .scalarImm o⟩
  | .sext o => some ⟨.sext, .scalarReg o⟩
  | .sextImm o => some ⟨.sextImm, .scalarImm o⟩
  | .fadd64 o => some ⟨.fadd64, .scalarReg o⟩
  | .fsub64 o => some ⟨.fsub64, .scalarReg o⟩
  | .fmul64 o => some ⟨.fmul64, .scalarReg o⟩
  | .fdiv64 o => some ⟨.fdiv64, .scalarReg o⟩
  | .fmin64 o => some ⟨.fmin64, .scalarReg o⟩
  | .fmax64 o => some ⟨.fmax64, .scalarReg o⟩
  | .feq o => some ⟨.feq, .scalarReg o⟩
  | .flt o => some ⟨.flt, .scalarReg o⟩
  | .fle o => some ⟨.fle, .scalarReg o⟩
  | .fcvtfi o => some ⟨.fcvtfi, .scalarUnary o⟩
  | .fcvtif o => some ⟨.fcvtif, .scalarUnary o⟩
  | .fsqrt64 o => some ⟨.fsqrt64, .scalarUnary o⟩
  | .rdsys o => some ⟨.rdsys, .scalarNum o⟩
  | .wrsys o => some ⟨.wrsys, .scalarWrsys o⟩
  | .segq o => some ⟨.segq, .scalarQuery o⟩
  | .segqImm o => some ⟨.segqImm, .scalarConst o⟩
  | .whoami o => some ⟨.whoami, .scalarNum o⟩
  | .rdcnt o => some ⟨.rdcnt, .scalarQuery o⟩
  | .rdcntImm o => some ⟨.rdcntImm, .scalarConst o⟩
  | .lidx o => some ⟨.lidx, .scalarNum o⟩
  | .rdtok o => some ⟨.rdtok, .scalarDest o⟩
  | .rdtag o => some ⟨.rdtag, .scalarDest o⟩
  | .brc a n off => some ⟨.brc, .branch a n off⟩
  | .call off => some ⟨.call, .callOff off⟩
  | .jmp a => some ⟨.jmp, .reg a⟩
  | .calli a => some ⟨.calli, .reg a⟩
  | .ret => some ⟨.ret, .bare⟩
  | .loop cnt len => some ⟨.loop, .loopImm cnt len⟩
  | .loopReg a len => some ⟨.loopReg, .loopReg a len⟩
  | .loopq q len => some ⟨.loopq, .loopQueue q len⟩
  | .brkl => some ⟨.brkl, .bare⟩
  | .rep cnt stride => some ⟨.rep, .repImm cnt stride⟩
  | .repReg a stride => some ⟨.repReg, .repReg a stride⟩
  | .wait bar phase d a => some ⟨.wait, .waitOn bar phase d a⟩
  | .arrive bar n => some ⟨.arrive, .arriveImm bar n⟩
  | .arriveReg bar a => some ⟨.arriveReg, .arriveReg bar a⟩
  | .arrivew bar n d => some ⟨.arrivew, .arrivewImm bar n d⟩
  | .arrivewReg bar a d => some ⟨.arrivewReg, .arrivewReg bar a d⟩
  | .dtwait mask => some ⟨.dtwait, .tokenMask mask⟩
  | .spawn target base count entry => some ⟨.spawn, .spawn target base count entry⟩
  | .halt => some ⟨.halt, .bare⟩
  | .trap code => some ⟨.trap, .trapCode code⟩
  | .mark mstep => some ⟨.mark, .markStep mstep⟩
  | .yield => some ⟨.yield, .bare⟩
  | .taga a => some ⟨.taga, .reg a⟩
  | .tret a => some ⟨.tret, .reg a⟩
  | .tfold a => some ⟨.tfold, .reg a⟩
  | .tset a => some ⟨.tset, .reg a⟩
  | .cqfill q seg o cnt => some ⟨.cqfill, .cqfill q seg o cnt⟩
  | .cqpush q a => some ⟨.cqpush, .cqpush q a⟩
  | .launch a b => some ⟨.launch, .stream a b⟩
  | .waitw a b => some ⟨.waitw, .stream a b⟩
  | .signal a b => some ⟨.signal, .stream a b⟩
  | .fadd o => some ⟨.fadd, .vec o⟩
  | .fsub o => some ⟨.fsub, .vec o⟩
  | .fmul o => some ⟨.fmul, .vec o⟩
  | .fma o => some ⟨.fma, .vec o⟩
  | .fmin o => some ⟨.fmin, .vec o⟩
  | .fmax o => some ⟨.fmax, .vec o⟩
  | .fabs o => some ⟨.fabs, .vec o⟩
  | .fneg o => some ⟨.fneg, .vec o⟩
  | .iadd o => some ⟨.iadd, .vec o⟩
  | .isub o => some ⟨.isub, .vec o⟩
  | .imul o => some ⟨.imul, .vec o⟩
  | .imulh o => some ⟨.imulh, .vec o⟩
  | .iand o => some ⟨.iand, .vec o⟩
  | .ior o => some ⟨.ior, .vec o⟩
  | .ixor o => some ⟨.ixor, .vec o⟩
  | .ishl o => some ⟨.ishl, .vec o⟩
  | .ishr o => some ⟨.ishr, .vec o⟩
  | .isar o => some ⟨.isar, .vec o⟩
  | .imin o => some ⟨.imin, .vec o⟩
  | .imax o => some ⟨.imax, .vec o⟩
  | .iminu o => some ⟨.iminu, .vec o⟩
  | .imaxu o => some ⟨.imaxu, .vec o⟩
  | .iaddi o => some ⟨.iaddi, .vec o⟩
  | .idot4 o => some ⟨.idot4, .vec o⟩
  | .vcmp o => some ⟨.vcmp, .vec o⟩
  | .vsel o => some ⟨.vsel, .vec o⟩
  | .vmov o => some ⟨.vmov, .vec o⟩
  | .vbcs o => some ⟨.vbcs, .vec o⟩
  | .vidx o => some ⟨.vidx, .vec o⟩
  | .vshuf o => some ⟨.vshuf, .vec o⟩
  | .vrot o => some ⟨.vrot, .vec o⟩
  | .vcat o => some ⟨.vcat, .vec o⟩
  | .vred o => some ⟨.vred, .vec o⟩
  | .vscan o => some ⟨.vscan, .vec o⟩
  | .vput o => some ⟨.vput, .vec o⟩
  | .vcvt o => some ⟨.vcvt, .vec o⟩
  | .vpack o => some ⟨.vpack, .vec o⟩
  | .vunpk o => some ⟨.vunpk, .vec o⟩
  | .vmaxe o => some ⟨.vmaxe, .vec o⟩
  | .vqnt o => some ⟨.vqnt, .vec o⟩
  | .vdeq o => some ⟨.vdeq, .vec o⟩
  | .vrmm o => some ⟨.vrmm, .vec o⟩
  | .pand o => some ⟨.pand, .vec o⟩
  | .por o => some ⟨.por, .vec o⟩
  | .pxor o => some ⟨.pxor, .vec o⟩
  | .pnot o => some ⟨.pnot, .vec o⟩
  | .pmov o => some ⟨.pmov, .vec o⟩
  | .vclass o => some ⟨.vclass, .vec o⟩
  | .vrnd o => some ⟨.vrnd, .vec o⟩
  | .frcp o => some ⟨.frcp, .fn o⟩
  | .frsqrt o => some ⟨.frsqrt, .fn o⟩
  | .fnFsqrt o => some ⟨.fnFsqrt, .fn o⟩
  | .fnFdiv o => some ⟨.fnFdiv, .fn o⟩
  | .fexp2 o => some ⟨.fexp2, .fn o⟩
  | .flog2 o => some ⟨.flog2, .fn o⟩
  | .fexp o => some ⟨.fexp, .fn o⟩
  | .flog o => some ⟨.flog, .fn o⟩
  | .fsin o => some ⟨.fsin, .fn o⟩
  | .fcos o => some ⟨.fcos, .fn o⟩
  | .ftanh o => some ⟨.ftanh, .fn o⟩
  | .fsigm o => some ⟨.fsigm, .fn o⟩
  | .ferf o => some ⟨.ferf, .fn o⟩
  | .scxd o => some ⟨.scxd, .sort o⟩
  | .scxa o => some ⟨.scxa, .sort o⟩
  | .scxb o => some ⟨.scxb, .sort o⟩
  | .scx2d o => some ⟨.scx2d, .sort o⟩
  | .scx2a o => some ⟨.scx2a, .sort o⟩
  | .lb o => some ⟨.lb, .memSeg o⟩
  | .lbu o => some ⟨.lbu, .memSeg o⟩
  | .lh o => some ⟨.lh, .memSeg o⟩
  | .lhu o => some ⟨.lhu, .memSeg o⟩
  | .lw o => some ⟨.lw, .memSeg o⟩
  | .lwu o => some ⟨.lwu, .memSeg o⟩
  | .ld o => some ⟨.ld, .memSeg o⟩
  | .sb o => some ⟨.sb, .memSeg o⟩
  | .sh o => some ⟨.sh, .memSeg o⟩
  | .sw o => some ⟨.sw, .memSeg o⟩
  | .sd o => some ⟨.sd, .memSeg o⟩
  | .lvW256 o => some ⟨.lvW256, .memSeg o⟩
  | .lvW512 o => some ⟨.lvW512, .memSeg o⟩
  | .lvW1024 o => some ⟨.lvW1024, .memSeg o⟩
  | .svW256 o => some ⟨.svW256, .memSeg o⟩
  | .svW512 o => some ⟨.svW512, .memSeg o⟩
  | .svW1024 o => some ⟨.svW1024, .memSeg o⟩
  | .lvg o => some ⟨.lvg, .memSeg o⟩
  | .svg o => some ⟨.svg, .memSeg o⟩
  | .ldx o => some ⟨.ldx, .memCross o⟩
  | .lvx o => some ⟨.lvx, .memCross o⟩
  | .aadd o => some ⟨.aadd, .memSeg o⟩
  | .afadd o => some ⟨.afadd, .memSeg o⟩
  | .amin o => some ⟨.amin, .memSeg o⟩
  | .amax o => some ⟨.amax, .memSeg o⟩
  | .aminu o => some ⟨.aminu, .memSeg o⟩
  | .amaxu o => some ⟨.amaxu, .memSeg o⟩
  | .aand o => some ⟨.aand, .memSeg o⟩
  | .aor o => some ⟨.aor, .memSeg o⟩
  | .axor o => some ⟨.axor, .memSeg o⟩
  | .axch o => some ⟨.axch, .memSeg o⟩
  | .acas o => some ⟨.acas, .memSeg o⟩
  | .aadd64 o => some ⟨.aadd64, .memSeg o⟩
  | .axch64 o => some ⟨.axch64, .memSeg o⟩
  | .acas64 o => some ⟨.acas64, .memSeg o⟩
  | .fence o => some ⟨.fence, .fence o⟩
  | .lacq o => some ⟨.lacq, .memAcq o⟩
  | .srel o => some ⟨.srel, .memAcq o⟩
  | .binit o => some ⟨.binit, .memSeg o⟩
  | .bbind o => some ⟨.bbind, .memSeg o⟩
  | .btx o => some ⟨.btx, .memSeg o⟩
  | .vact o => some ⟨.vact, .vaultRow o⟩
  | .vpre o => some ⟨.vpre, .vaultRow o⟩
  | .vref o => some ⟨.vref, .vaultRef o⟩
  | .vld o => some ⟨.vld, .vaultCol o⟩
  | .vst o => some ⟨.vst, .vaultCol o⟩
  | .vldr o => some ⟨.vldr, .memFar o⟩
  | .vstr o => some ⟨.vstr, .memFar o⟩
  | .lfd o => some ⟨.lfd, .memFar o⟩
  | .sfd o => some ⟨.sfd, .memFar o⟩
  | .mma o => some ⟨.mma, .mx o⟩
  | .mmaz o => some ⟨.mmaz, .mx o⟩
  | .mmag o => some ⟨.mmag, .mx o⟩
  | .mzero o => some ⟨.mzero, .mx o⟩
  | .mdrain o => some ⟨.mdrain, .mx o⟩
  | .mshape o => some ⟨.mshape, .mx o⟩
  | .mwin o => some ⟨.mwin, .mx o⟩
  | .mmaw o => some ⟨.mmaw, .mx o⟩
  | .mload o => some ⟨.mload, .mx o⟩
  | .zld o => some ⟨.zld, .zs o⟩
  | .zadd o => some ⟨.zadd, .zs o⟩
  | .zset o => some ⟨.zset, .zs o⟩
  | .copy o => some ⟨.copy, .sh o⟩
  | .mcast o => some ⟨.mcast, .sh o⟩
  | .reduce o => some ⟨.reduce, .sh o⟩
  | .post o => some ⟨.post, .sh o⟩
  | .recallSeg o => some ⟨.recall, .sh o⟩
  | .pushout o => some ⟨.pushout, .sh o⟩
  | .fill o => some ⟨.fill, .sh o⟩
  | .gthr o => some ⟨.gthr, .sh o⟩
  | .sctr o => some ⟨.sctr, .sh o⟩
  | .vxfer o => some ⟨.vxfer, .sh o⟩
  | .copyb o => some ⟨.copyb, .sh o⟩
  | .jcfg o => some ⟨.jcfg, .jq o⟩
  | .jord o => some ⟨.jord, .jq o⟩
  | .jvar o => some ⟨.jvar, .jq o⟩
  | .jmk o => some ⟨.jmk, .jq o⟩
  | .japp o => some ⟨.japp, .jq o⟩
  | .jite o => some ⟨.jite, .jq o⟩
  | .jres o => some ⟨.jres, .jq o⟩
  | .jexq o => some ⟨.jexq, .jq o⟩
  | .jcnt o => some ⟨.jcnt, .jq o⟩
  | .jsat o => some ⟨.jsat, .jq o⟩
  | .jexp o => some ⟨.jexp, .jq o⟩
  | .jref o => some ⟨.jref, .jq o⟩
  | .jdrf o => some ⟨.jdrf, .jq o⟩
  | .jgc o => some ⟨.jgc, .jq o⟩
  | .jstat o => some ⟨.jstat, .jq o⟩
  | .jclr o => some ⟨.jclr, .jq o⟩
  | .pickIssue _ => none
  | .subnormalReplay _ _ => none
  | .chunkGrant _ _ => none
  | .chunkRetire _ _ => none
  | .engineCommandComplete _ _ => none
  | .partialSumArrival _ => none
  | .handlerStart _ => none
  | .spindleTransferComplete _ => none
  | .allocationComplete _ => none
  | .overlayMaterialise _ => none
  | .tagGrant _ _ => none
  | .tagFreed _ _ _ => none
  | .arrivalUpdate _ => none
  | .waitTimeout _ _ => none
  | .refreshDeadline _ _ _ => none
  | .vaultTemperatureChange _ _ => none
  | .sharedBankServe _ => none
  | .farReadCompletion _ _ => none
  | .farCompletionTimeout _ => none
  | .farWritePerform _ _ => none
  | .peerAccessArrival _ => none
  | .reducePartnerTimeout _ => none
  | .containment _ => none
  | .loomReset _ => none
  | .loomResetComplete _ => none
  | .launchBlockReadDone _ _ => none
  | .launchBlockRefetch _ => none
  | .launchCopiesDone _ _ => none
  | .launchStart _ => none
  | .launchComplete _ => none
  | .watchedWordChange _ => none
  | .quantumExpiry _ => none
  | .fullSwitch _ => none
  | .switchInComplete _ => none
  | .spcWrite _ _ => none
  | .shalt _ _ => none
  | .snapgo _ _ => none
  | .snapshotComplete _ _ => none
  | .sresume _ _ => none
  | .sresumeRelaunch _ => none
  | .registerWrite _ _ _ => none
  | .dbgloomWrite _ _ => none
  | .dbgresume _ _ => none
  | .compWrite _ _ _ => none
  | .dumpgo _ _ => none
  | .dumpComplete _ => none
  | .dumpAbandon _ _ => none
  | .fltack _ _ => none
  | .fltretry _ _ => none
  | .fltend _ _ => none
  | .hostPostedWrite _ => none
  | .hostReadRequest _ _ _ _ => none
  | .functionLevelReset _ => none
  | .deviceReset => none
  | .deviceBoot _ => none
  | .bootRecordClear _ => none
  | .membershipSign _ _ => none
  | .weightSet _ _ _ => none
  | .partitionAssign _ _ => none
  | .keySlotLoad _ _ => none
  | .domainJoin _ _ => none
  | .controllerRefreshEnd _ _ => none

/-- Looms 0 to 1,279 (R5), sequencers 0 to 7 (R13), tenancies 0 to 63 (R9), clusters 0 to 79 (R5). -/
def loomOk (l : Nat) : Bool := l < 1280
/-- Looms, and the Shuttle ports of the stream sequencers: 1,280 + n serves tenancy n (R277). -/
def portOk (l : Nat) : Bool := l < 1344
def seqOk (q : Nat) : Bool := q < 8
def tenancyOk (t : Nat) : Bool := t < 64
def clusterOk (c : Nat) : Bool := c < 80

/-- An event names agents that exist; a slot always does. -/
def Instr.agentsOk (i : Instr) : Bool :=
  match i with
  | .pickIssue agent => (match agent with | .loom n => loomOk n | .stream t => tenancyOk t)
  | .subnormalReplay loom q => portOk loom && seqOk q
  | .chunkGrant loom _ => portOk loom
  | .chunkRetire loom _ => portOk loom
  | .engineCommandComplete loom _ => portOk loom
  | .partialSumArrival loom => loomOk loom
  | .handlerStart loom => loomOk loom
  | .spindleTransferComplete loom => loomOk loom
  | .allocationComplete loom => loomOk loom
  | .overlayMaterialise loom => loomOk loom
  | .tagGrant cluster tenancy => clusterOk cluster && tenancyOk tenancy
  | .tagFreed cluster tenancy _ => clusterOk cluster && tenancyOk tenancy
  | .arrivalUpdate loom => loomOk loom
  | .waitTimeout loom q => loomOk loom && seqOk q
  | .refreshDeadline loom bank group => loomOk loom && bank < 20 && group < 8
  | .vaultTemperatureChange loom band => loomOk loom && band < 4
  | .sharedBankServe loom => loomOk loom
  | .farWritePerform stack _ => stack < 5
  | .reducePartnerTimeout loom => loomOk loom
  | .containment loom => loomOk loom
  | .loomReset loom => loomOk loom
  | .loomResetComplete loom => loomOk loom
  | .watchedWordChange tenancy => tenancyOk tenancy
  | .quantumExpiry loom => loomOk loom
  | .fullSwitch loom => loomOk loom
  | .switchInComplete loom => loomOk loom
  | .spcWrite tenancy _ => tenancyOk tenancy
  | .shalt tenancy _ => tenancyOk tenancy
  | .snapgo tenancy _ => tenancyOk tenancy
  | .snapshotComplete tenancy _ => tenancyOk tenancy
  | .sresume tenancy _ => tenancyOk tenancy
  | .sresumeRelaunch tenancy => tenancyOk tenancy
  | .registerWrite tenancy _ _ => tenancyOk tenancy
  | .dbgloomWrite tenancy _ => tenancyOk tenancy
  | .dbgresume tenancy _ => tenancyOk tenancy
  | .compWrite tenancy comparator _ => tenancyOk tenancy && comparator < 16
  | .dumpgo tenancy _ => tenancyOk tenancy
  | .dumpComplete tenancy => tenancyOk tenancy
  | .dumpAbandon tenancy _ => tenancyOk tenancy
  | .fltack tenancy _ => tenancyOk tenancy
  | .fltretry tenancy _ => tenancyOk tenancy
  | .fltend tenancy _ => tenancyOk tenancy
  | .hostPostedWrite write => tenancyOk write.tenancy
  | .hostReadRequest tenancy _ _ _ => tenancyOk tenancy
  | .functionLevelReset tenancy => tenancyOk tenancy
  | .weightSet loom tenancy _ => loomOk loom && tenancyOk tenancy
  | .partitionAssign tenancy clusters => tenancyOk tenancy && clusters.all clusterOk
  | .controllerRefreshEnd loom bank => loomOk loom && bank < 20
  | _ => true

end Sys2Proof
end

