-- ==== Sys2Proof/Machine/Tab.lean ====
section
/-!
DEFINITION. Sparse tables and memories as plain lists in one canonical form: keys strictly rising. A table of words lists
no word equal to its default; a memory lists no zero byte.
-/

namespace Sys2Proof

/-- A table by number. -/
abbrev Tab (α : Type) := List (Nat × α)

/-- Entry k of a table. -/
def Tab.find? {α : Type} (t : Tab α) (k : Nat) : Option α :=
  match t with
  | [] => none
  | (j, a) :: r => if j = k then some a else Tab.find? r k

/-- Entry k, or a default. -/
def Tab.get {α : Type} (t : Tab α) (k : Nat) (d : α) : α := (Tab.find? t k).getD d

/-- Set entry k, keeping the keys rising. -/
def Tab.put {α : Type} (t : Tab α) (k : Nat) (a : α) : Tab α :=
  match t with
  | [] => [(k, a)]
  | (j, b) :: r => if j = k then (k, a) :: r else if k < j then (k, a) :: (j, b) :: r else (j, b) :: Tab.put r k a

/-- Remove entry k, wherever it stands. -/
def Tab.drop {α : Type} (t : Tab α) (k : Nat) : Tab α :=
  match t with
  | [] => []
  | (j, b) :: r => if j = k then Tab.drop r k else (j, b) :: Tab.drop r k

/-- Set entry k, listing no entry equal to the default. -/
def Tab.set {α : Type} [DecidableEq α] (t : Tab α) (k : Nat) (a d : α) : Tab α :=
  if a = d then Tab.drop t k else Tab.put t k a

/-- Change every entry. -/
def Tab.map {α β : Type} (t : Tab α) (f : α → β) : Tab β :=
  match t with
  | [] => []
  | (j, b) :: r => (j, f b) :: Tab.map r f

/-- Keys strictly rising. -/
def Tab.rising {α : Type} (t : Tab α) : Bool :=
  match t with
  | [] => true
  | [_] => true
  | (i, _) :: (j, b) :: r => i < j && Tab.rising ((j, b) :: r)

/-- Put an element before the first one that it does not follow. -/
def insertBy {α : Type} (le : α → α → Bool) (x : α) (l : List α) : List α :=
  match l with
  | [] => [x]
  | y :: r => if le x y then x :: y :: r else y :: insertBy le x r
/-- A list in order; elements that compare equal keep theirs. -/
def sortBy {α : Type} (le : α → α → Bool) (l : List α) : List α :=
  match l with
  | [] => []
  | x :: r => insertBy le x (sortBy le r)

/-- The contents of memory that are not zero, by address. What an unlisted address reads as is zero (log 2). -/
abbrev Memory := List Host.Cell

/-- What an unlisted address reads as: zero (R45, R307; log 2). -/
def Memory.unlisted : Byte := 0#8

/-- One byte. -/
def Memory.read (m : Memory) (a : Nat) : Byte := Tab.get m a Memory.unlisted
/-- Write one byte, keeping the canonical form. -/
def Memory.write (m : Memory) (a : Nat) (b : Byte) : Memory := Tab.set m a b Memory.unlisted
/-- The canonical form: addresses strictly rising, no entry equal to what an unlisted address reads as. -/
def Memory.wf (m : Memory) : Bool := Tab.rising m && m.all (fun c => c.2 != Memory.unlisted)

/-- n bytes from an address upward. -/
def Memory.readBytes (m : Memory) (a n : Nat) : List Byte := (List.range n).map (fun i => Memory.read m (a + i))
/-- Write bytes from an address upward. -/
def Memory.writeBytes (m : Memory) (a : Nat) (bs : List Byte) : Memory :=
  match bs with
  | [] => m
  | b :: r => Memory.writeBytes (Memory.write m a b) (a + 1) r

/-- A number from bytes, the first the least significant (R1). -/
def leNat (bs : List Byte) : Nat :=
  match bs with
  | [] => 0
  | b :: r => b.toNat + 256 * leNat r
/-- The n low bytes of a number, least significant first (R1). -/
def leBytes (n x : Nat) : List Byte :=
  match n with
  | 0 => []
  | n + 1 => BitVec.ofNat 8 x :: leBytes n (x / 256)
/-- A little-endian number of n bytes at an address. -/
def Memory.readNat (m : Memory) (a n : Nat) : Nat := leNat (Memory.readBytes m a n)
/-- Write a little-endian number of n bytes. -/
def Memory.writeNat (m : Memory) (a n x : Nat) : Memory := Memory.writeBytes m a (leBytes n x)

end Sys2Proof
end

