-- ==== Sys2Proof/Machine/Crypt.lean ====
section
/-!
DEFINITION. What protects a 64-byte line: its CRC-32C check value (R90), and AES-256-XTS (IEEE 1619, over FIPS 197) between
the device and far memory (R89).
-/

namespace Sys2Proof.Machine

/-! ## CRC-32C (R90) -/

/-- One bit of the reflected polynomial 0x1EDC6F41. -/
def crcBit (c : Word) : Word := if c.getLsbD 0 then (c >>> 1) ^^^ 0x82F63B78#32 else c >>> 1
/-- n bits. -/
def crcBits (n : Nat) (c : Word) : Word :=
  match n with
  | 0 => c
  | n + 1 => crcBits n (crcBit c)
/-- The check value of bytes in ascending order. -/
def crc32c (bs : List Byte) : Word :=
  ~~~(bs.foldl (fun c b => crcBits 8 (c ^^^ b.zeroExtend 32)) 0xFFFFFFFF#32)

/-! ## The field of AES -/

/-- Times x. -/
def aesDouble (a : Byte) : Byte := (a <<< 1) ^^^ (if a.getLsbD 7 then 0x1B#8 else 0#8)
/-- A product, over the n low bits of b. -/
def aesTimes (n : Nat) (a b : Byte) : Byte :=
  match n with
  | 0 => 0#8
  | n + 1 => (if b.getLsbD 0 then a else 0#8) ^^^ aesTimes n (aesDouble a) (b >>> 1)
def aesMul (a b : Byte) : Byte := aesTimes 8 a b
/-- The inverse, x^254; 0 for 0: the product of x^2, x^4, … x^128. -/
def aesInverse (x : Byte) : Byte :=
  ((List.range 7).foldl (fun (p : Byte × Byte) _ => (aesMul p.1 (aesMul p.2 p.2), aesMul p.2 p.2)) (1#8, x)).1
/-- The S-box and its inverse. -/
def aesSub (x : Byte) : Byte :=
  let y := aesInverse x
  y ^^^ y.rotateLeft 1 ^^^ y.rotateLeft 2 ^^^ y.rotateLeft 3 ^^^ y.rotateLeft 4 ^^^ 0x63#8
def aesUnsub (y : Byte) : Byte := aesInverse (y.rotateLeft 1 ^^^ y.rotateLeft 3 ^^^ y.rotateLeft 6 ^^^ 0x05#8)

/-! ## AES-256 over a block of 16 bytes, column by column -/

def xorBytes (a b : List Byte) : List Byte := List.zipWith (· ^^^ ·) a b
/-- Each row r turned by r columns: left, or back. -/
def shiftRows (x : List Byte) : List Byte := (List.range 16).map (fun i => x.getD (4 * ((i / 4 + i % 4) % 4) + i % 4) 0#8)
def unshiftRows (x : List Byte) : List Byte :=
  (List.range 16).map (fun i => x.getD (4 * ((i / 4 + 4 - i % 4) % 4) + i % 4) 0#8)
/-- Every column times a circulant matrix, given by its first row. -/
def mixColumns (m : List Byte) (x : List Byte) : List Byte :=
  (List.range 16).map (fun i =>
    (List.range 4).foldl (fun a k => a ^^^ aesMul (m.getD ((k + 4 - i % 4) % 4) 0#8) (x.getD (4 * (i / 4) + k) 0#8)) 0#8)
/-- The words of the key schedule, latest first: n more after those given. -/
def expandWords (n i : Nat) (rcon : Byte) (ws : List (List Byte)) : List (List Byte) :=
  match n with
  | 0 => ws
  | n + 1 =>
    let last := ws.headD []
    let turned := (last.drop 1 ++ last.take 1).map aesSub
    let mixed := if i % 8 = 0 then xorBytes turned [rcon, 0#8, 0#8, 0#8] else if i % 8 = 4 then last.map aesSub else last
    expandWords n (i + 1) (if i % 8 = 0 then aesDouble rcon else rcon) (xorBytes (ws.getD 7 []) mixed :: ws)
/-- The 15 round keys of a 256-bit key, in order. -/
def roundKeys (key : List Byte) : List (List Byte) :=
  let first := ((List.range 8).map (fun i => (key.drop (4 * i)).take 4)).reverse
  let ws := (expandWords 52 8 1#8 first).reverse
  (List.range 15).map (fun r => ((ws.drop (4 * r)).take 4).flatten)
/-- One round of encryption, the last without its mixing. -/
def aesRound (x k : List Byte) (last : Bool) : List Byte :=
  let y := shiftRows (x.map aesSub)
  xorBytes (if last then y else mixColumns [2#8, 3#8, 1#8, 1#8] y) k
/-- One round of decryption, the first without its mixing. -/
def aesUnround (x k : List Byte) (first : Bool) : List Byte :=
  let y := xorBytes x k
  (unshiftRows (if first then y else mixColumns [14#8, 11#8, 13#8, 9#8] y)).map aesUnsub
def aesEncrypt (keys : List (List Byte)) (x : List Byte) : List Byte :=
  (keys.zipIdx.drop 1).foldl (fun x k => aesRound x k.1 (k.2 == 14)) (xorBytes x (keys.headD []))
def aesDecrypt (keys : List (List Byte)) (x : List Byte) : List Byte :=
  xorBytes ((keys.zipIdx.drop 1).reverse.foldl (fun x k => aesUnround x k.1 (k.2 == 14)) x) (keys.headD [])

/-! ## AES-256-XTS over a 64-byte line (R89) -/

/-- Bytes of a 512-bit key, the first the least significant; the first half encrypts the data, the second the tweak. -/
def keyBytes (k : BitVec 512) : List Byte := (List.range 64).map (fun i => k.extractLsb' (8 * i) 8)
/-- The masks of the four blocks of a line: the encrypted tweak, times x for each block. -/
def xtsMasks (k2 : List (List Byte)) (tweak : Nat) : List (List Byte) :=
  let first := leNat (aesEncrypt k2 (leBytes 16 tweak))
  let next := fun (t : Nat) => (2 * t) % 2 ^ 128 ^^^ (if 2 ^ 127 ≤ t then 0x87 else 0)
  [first, next first, next (next first), next (next (next first))].map (leBytes 16)
/-- A line through a cipher of its blocks, under a key. -/
def xtsLine (cipher : List (List Byte) → List Byte → List Byte) (key : BitVec 512) (tweak : Nat) (line : List Byte) :
    List Byte :=
  let k1 := roundKeys ((keyBytes key).take 32)
  let masks := xtsMasks (roundKeys ((keyBytes key).drop 32)) tweak
  masks.zipIdx.flatMap (fun m => xorBytes (cipher k1 (xorBytes ((line.drop (16 * m.2)).take 16) m.1)) m.1)
/-- A line that was stored under one key, as another key reads it: encrypted and decrypted. -/
def otherKey (stored key : BitVec 512) (tweak : Nat) (line : List Byte) : List Byte :=
  if stored = key then line else xtsLine aesDecrypt key tweak (xtsLine aesEncrypt stored tweak line)

end Sys2Proof.Machine
end

