-- ==== Sys2Proof/Config.lean ====
section
/-!
DEFINITION. What an implementation fixes, and the free values. A free value has no body: nothing proved about the
machine can rest on a value of it. State's counter `free` is applied to it, so each draw is a value of its own.
-/

namespace Sys2Proof.Config

/-- Free bits: a result the manual leaves undefined (log 7). -/
opaque freeValue : Nat → BitVec 1024

/-- The choice that R331 leaves open when a group is not independent: by step and register. Free (log 16). -/
opaque groupChoice : Nat → Nat → Bool

/-- Is a special function of an operand a hard case, which replays (R186)? By opcode, type and operands. Free (log 9). -/
opaque hardCase : Nat → Nat → Nat → Nat → Bool

/-- Has the scrub of R383 reached a line when a later launch of the same tenancy begins? By draw and line. Free (R307). -/
opaque scrubbed : Nat → Nat → Bool

/-- What a duration measures. The manual gives none of these figures; they are cycles (R3). -/
inductive Process where
  | transfer      -- a push, a recall or a compaction move (R51)
  | allocation    -- allocation and zero fill (R45), or an overlay's copy (R63)
  | chunk         -- one engine chunk (R54)
  | slice         -- one matrix slice (R217)
  | tagOp         -- a tret or tfold on every loom of the cluster (R68)
  | sharedServe   -- service of one shared-bank access (R82)
  | farRead       -- a far read until its completion (R87)
  | farWrite      -- a far write from its stack's queue to its target (R264)
  | replay        -- a microcoded replay (R100)
  | refresh       -- the vault controller's own refresh, at most 200 cycles (R373)
  | bankConflict  -- one service of a scratchpad bank (R193)
  | blockRead     -- a read of a launch block (R280)
  | copies        -- the copies of a launch (R280)
  | switchOut     -- saving a launch's state (R287)
  | switchIn      -- restoring it (R285)
  | signing       -- signing a snapshot (R292)
  | dump          -- writing a dump (R302)
  | loomReset     -- resetting a loom, within 1,048,576 cycles (R324)
  | scrub         -- scrubbing a loom when a tenancy leaves it (R383)
  | tagGrant      -- the allocator's answer to a taga (R66): 0 or more
  | fence         -- what a fence or an acquire waits for before the loads behind it are served (R201): 0 or more
deriving DecidableEq, Repr

/-- Cycles a process takes: free (log 9). The second argument is State's counter of draws. -/
opaque duration : Process → Nat → Nat

/-- DEVID: the SHAKE-256 hash of the device's identity public key (R291), free. -/
opaque devid : BitVec 256
/-- FWHASH: the SHAKE-256 hash of the running firmware image, A or (true) B (R291), free. -/
opaque fwhash : Bool → BitVec 256
/-- Byte i of the SLH-DSA-SHAKE-256f signature over a record or a body (R292, R293), free. -/
opaque signatureByte : List Byte → Nat → Byte
/-- Bytes of a dump's snapshot-register area, which Table 17.5 leaves uninterpreted, free. -/
opaque snapshotAreaByte : Nat → Nat → Byte
/-- Is a line of a switched-out tenancy's saved state poisoned where it is kept (R405)? What tier holds it, and so what errors it
meets, is not given: free (log 73). -/
opaque savedPoison : Nat → Nat → Bool
/-- How a dump packs the registers that Table 17.5 lists in 64 bytes, and the held slots in 224: byte i by the values, free
(log 4). -/
opaque packedByte : List Nat → Nat → Byte
/-- What the loom-level state that a light switch does not save holds when the launch comes back (R39), free: tile elements,
scale bytes and the contents of a count queue. -/
opaque lostTiles : Nat → Tab Word
opaque lostScales : Nat → Tab Byte
opaque lostQueue : Nat → Nat → List Word

/-- What lies outside the device answers as it will, by draw, free (log 19, log 42): whether a target refuses an engine's access
or a pick fetch, or lets it time out (R377, R390); whether a rank on another device has issued other values than its partner
(R363); whether its beat has not come yet (R228); and whether the host's completion comes poisoned (R371). -/
opaque targetRefuses : Nat → Bool
opaque hostPoisons : Nat → Bool
opaque peerDiffers : Nat → Bool
opaque peerLate : Nat → Bool

/-- The completion timeout of a far access, 50 ms at 2.1 GHz (R3, R377). -/
def completionTimeout : Nat := 105_000_000
/-- Cycles a reduce rank waits before it writes record 0x609 (R363). -/
def reducePatience : Nat := 2 ^ 31

end Sys2Proof.Config
end

