-- ==== Sys2Proof/Machine/Parts.lean ====
section
/-!
DEFINITION. The parts that the machine's state is built from: sequencers, engine commands, segments, the vault, barrier
waits, launches, streams and the boot record. Plain data throughout.
-/

namespace Sys2Proof.Machine

/-! ## Sequencers (R14, Table 2.1) -/

/-- What a result is written to. -/
inductive Dest where
  | s (r : Nat) | v (r : Nat) | q (r : Nat)
  | sl (j : Nat)
  | rmm       -- bits 31:0 the maximum, bit 32 NaN seen
  | ct | frm | vclosed
  | shape     -- the matrix shape state, 128 bits
  | window    -- the window state, 320 bits
  | count (k : Nat)   -- element operations that counter k counts when the result lands (R185)
  | token (k : Nat) | li (d : Nat) | busy (tile : Nat)   -- never in flight: what a group's slots write at once (R331)
deriving DecidableEq, Repr

/-- An error found in a returning result, reported where it would land (R316). -/
structure LandingError where
  code : Nat
  operand : DWord
deriving DecidableEq, Repr

/-- A barrier object's place: device loom, segment, offset (R205). -/
structure BarrierRef where
  loom : Nat
  seg : Nat
  off : Nat
deriving DecidableEq, Repr

/-- Whether a result's data is there (R82, R87, R201): of a load that a fence or an acquire holds back, from a cycle on. -/
inductive Returned where
  | yes
  | after (cycle : Nat)
  | awaited (id : Nat)
  | failed (e : LandingError)
  | rejoins (object : BarrierRef)   -- a wait that a phase released while it was switched out: its word is formed at the switch-in (R385)
deriving DecidableEq, Repr

/-- A result in flight: it lands when the sequencer reaches a step (R25 to R27). Only the masked bits are written. -/
structure Landing where
  step : Nat
  dest : Dest
  mask : VReg
  value : VReg
  data : Returned
  pick : Nat      -- the pick, step and lane that issued it, for R316
  fromStep : Nat
  lane : Nat
deriving DecidableEq, Repr

/-- A register written by an earlier slot of the group in progress (R331): what it held before, and the write. -/
structure GroupWrite where
  dest : Dest
  old : VReg
  step : Nat
  mask : VReg
  value : VReg
  back : Bool             -- the value written is there: that of a load in flight, or of a wait, is not
deriving DecidableEq, Repr

/-- A loop-stack entry (R35). A repeat entry holds its stride; `left` is the remaining count. -/
structure LoopEntry where
  left : Nat
  first : Nat
  last : Nat
  depth : Nat
  rep : Bool
  stride : Nat
deriving DecidableEq, Repr

/-- The held slot of a lane (R33, R34). -/
structure HeldSlot where
  word : Word
  lent : Option (BitVec 10)
  count : Nat     -- executions so far
  offset : Nat    -- the hidden offset
  pick : Nat      -- the pick that issued the holding slot
deriving DecidableEq, Repr

/-- Why a sequencer is out of the ready set (Table 2.3), and what it needs to come back. -/
inductive Wait where
  /-- A wait or arrivew at the barrier unit, its timeout at a cycle (while switched out: the cycles that
  remain, R386). An arrivew registers when its arrival performs: until then it is not `armed`. -/
  | barrier (object : BarrierRef) (dest : Nat) (expires : Option Nat) (armed : Bool)
  /-- A dtwait or an engine slot whose tokens are not all set; its pick has not issued. -/
  | tokens (mask : BitVec 8)
  /-- A taga beyond the launch's quota, since a cycle; its pick has not issued. -/
  | tag (since : Nat)
  /-- A tret or tfold in progress. -/
  | tagOp (tag : Nat)
  /-- waitw: the word at a far descriptor still equals a value; its destination. -/
  | watch (desc : DWord) (value : DWord) (dest : Nat)
deriving DecidableEq, Repr

/-- A scheduled bank as its controller keeps it (R353). Steps are the assigned sequencer's, over its activations in
the launch. -/
structure BankState where
  row : Option Nat
  lastAct : Option Nat
  firstAccess : Bool
  lastAccess : Option Nat
  lastPre : Option Nat
  lastRef : Option Nat
  refreshEnds : Option Nat   -- the controller's own refresh in progress (R373)
  switched : BitVec 8        -- groups for which a switch has fallen since the program's last refresh
deriving DecidableEq, Repr

/-- Where a pick's write goes: a segment under a tag, a far target, or a loom's vault. -/
inductive WritePlace where
  | segment (seg tag : Nat)
  | far (kind peer : Nat)
  | vault (owner : Nat)
deriving DecidableEq, Repr

/-- Bytes that a lane of a stopped pick has written, and what stood there before its pick: no plain read of the rest of the pick
observes them (R192, R253). -/
structure KeptBytes where
  place : WritePlace
  addr : Nat
  old : List Byte
  new : List Byte
deriving DecidableEq, Repr

/-- A stopped sequencer (R298, R314, R316, R320). -/
structure Stop where
  code : Nat
  done : BitVec 14    -- lanes of the pick that have issued
  lane : Nat          -- 15: none
  comparator : Nat    -- 16: none
  pick : Nat
  step : Nat
  counted : Bool      -- the partial issue has been counted as a step
  zadd : Option Nat   -- the tile of a zadd that has issued: the rest of the pick keeps it (R314)
  bank : Option (Nat × BankState)   -- the scheduled bank that its ma has named, as ma found it (0x502)
  bound : List (Nat × Option BarrierRef)   -- barrier slots that its lanes have bound, as they were before: the rest of the step reads these, until another sequencer binds them (R407)
  kept : List KeptBytes   -- what its lanes have written: the reads of the rest of the step do not observe it (R253)
  whole : Bool        -- nothing of the pick remains: a resume goes on at the next pick
deriving DecidableEq, Repr

/-- Dormant or active, and where an active one stands (R16, R21). -/
inductive SeqStatus where
  | dormant
  | ready
  | waiting (w : Wait)
  | stopped (st : Stop)
deriving DecidableEq, Repr

/-- A Jacquard result waiting for the pick that clears its token (R239). -/
structure JResult where
  stamp : Nat         -- the cycle at which its command issued: the order of the queue
  token : Nat
  dest : Nat
  value : DWord
deriving DecidableEq, Repr

/-- What a fence or an acquire holds back of its sequencer (R200, R202): the later accesses of some classes, or, behind a release
fence, the later writes of them, atomics among them (R198). -/
structure HeldBack where
  classes : BitVec 16
  writes : Bool           -- only the writes
deriving DecidableEq, Repr

/-- One sequencer, or the stream sequencer of a tenancy (R14, R275). -/
structure Seq where
  status : SeqStatus
  launch : Nat              -- the launch it belongs to
  s : Tab DWord
  v : Tab VReg
  q : Tab QReg
  dt : BitVec 8
  ct : BitVec 12
  li : Tab Word
  sl : Tab Byte
  rmm : Word
  nanSeen : Bool
  fflags : BitVec 5
  frm : BitVec 2
  pc : DWord
  loops : List LoopEntry    -- innermost first
  held : Tab HeldSlot       -- by lane number
  flight : List Landing     -- in issue order: the snapshot registers
  group : List GroupWrite   -- writes of the group in progress, latest first
  waitPick : Nat          -- address of the pick whose wait it is in, or was in last
  fences : List (HeldBack × Nat)    -- what a fence or an acquire holds back, until a cycle (R201)
  steps : Nat               -- sys.stepcount
  past : Nat                -- steps of its earlier activations in the launch, for the distances of R353
  prio : BitVec 2
  vclosed : BitVec 20
  alloc : Nat
  banks : BitVec 20
  reopen : BitVec 20
  shape : BitVec 128        -- s[RA], then s[RB] of mshape
  window : BitVec 320       -- s[RA], then s[RB] to s[RB + 3] of mwin
  results : List JResult
  activeSince : Nat
  eligibleFrom : Nat        -- the first cycle in which it may issue (R22, R161)
  stopNext : Bool           -- a comparator of another sequencer stops it before its next whole pick (R298)
  tracing : Bool
  frozenCause : Nat         -- row of Table 2.3; 0: none
  frozenRun : Nat
  pendingSince : Option Nat -- the cycle at which its pick first found a segment absent (R56)
  noTag : Bool              -- the allocator stops its taga: no tag can come (R381)
  asked : Option Nat        -- the cycle at which the allocator answers its taga (R66)
  answer : Option (BitVec 12)   -- the tag that is promised to it, the answer on its way
  granted : Option (BitVec 12)
  conflictLeft : Nat        -- frozen cycles that a bank conflict still owes
  conflictPaid : Bool
  slipped : Bool            -- its next pick has slipped once (R32)
  replaying : Option Nat    -- the cycle at which its replay ends (R100)
  replayed : Bool           -- its next pick has had its replay
  resuming : Option Stop    -- a resumed pick whose lanes remain
  sysReleased : Bool        -- its next host write carries Relaxed Ordering clear (R270)
deriving DecidableEq, Repr

/-! ## Engine commands (R211 to R213) -/

/-- One pass of a Jacquard recursion (R244): what it is doing with which operands. -/
inductive JFrame where
  /-- Call the recursion of an opcode on f, g, h3. -/
  | call (op : Nat) (f g h : Nat)
  /-- The low result is coming; then the high arguments. -/
  | high (op : Nat) (v : Nat) (f g h : Nat) (hf hg hh : Nat) (app : Bool)
  /-- The high result is coming; `low` is the low result. -/
  | join (op : Nat) (v : Nat) (f g h : Nat) (low : Nat) (app : Bool)
  /-- The result is coming: insert it under the key. -/
  | insert (op : Nat) (f g h : Nat)
  /-- jcnt of node n: the low count is coming. -/
  | countHigh (n : Nat)
  /-- jcnt of node n: the high count is coming; `x` is the low term. -/
  | countJoin (n : Nat) (x : DWord)
deriving DecidableEq, Repr

/-- Where a Jacquard command stands between its units (R240). -/
structure JWork where
  stack : List JFrame
  acc : DWord          -- the last result returned, or a running count
  index : Nat          -- next assignment of jexp, node of jgc, or node of jsat's walk
  begun : Bool
  finished : Bool
deriving DecidableEq, Repr

/-- A sum on its way to the port. -/
inductive BlockSum where
  | nan
  | inf (neg : Bool)
  | fin (v : Int) (x : Int)     -- v · 2^x
deriving DecidableEq, Repr
/-- The schedule of a scaled matrix command (R222). -/
structure Scaled where
  first : Nat          -- F
  perSlice : Nat       -- c
  formed : Nat         -- slices formed by the engine
  delivered : Nat      -- slices delivered at the port
  sums : List (List (Nat × Nat × BlockSum))   -- the port's: row, column and sum of each slice formed and not delivered
  orphaned : Bool
deriving DecidableEq, Repr

/-- What a waiting request needs of one segment or overlay. -/
inductive Need where
  | segment (seg : Nat) (write : Bool)
  | overlay (seg tag line : Nat) (create : Bool)
deriving DecidableEq, Repr

/-- A chunk in progress (R54). -/
structure Chunk where
  units : Nat
  endsAt : Nat
  pins : List (Nat × List Need)   -- what it pins, by owning loom
  index : List Nat                -- the row index of each beat of a gthr or sctr, as read at the grant
deriving DecidableEq, Repr

/-- An engine command in its queue. -/
structure Cmd where
  op : Mnemonic
  launch : Nat
  seq : Nat
  pick : Nat
  step : Nat
  lane : Nat
  stamp : Nat
  tag : BitVec 12
  token : Option Nat
  aq : Bool
  rl : Bool
  scope : Nat
  args : List DWord        -- the registers read at issue, in the command's own order
  ac : Nat
  fa : Nat
  fb : Nat
  fn : Nat
  dest : Nat               -- D of a jq command
  shape : BitVec 128
  window : BitVec 320
  rows : Nat               -- M, for mmag read when the command begins
  cursor : DWord
  begun : Bool
  active : Bool            -- one of the commands in progress of its engine
  chunk : Option Chunk
  requested : Option Nat   -- the cycle at which its next chunk may be presented (R304)
  stopped : Bool
  parked : Bool
  again : Bool             -- its collection request has been raised once
  done : Bool              -- every unit performed; completion waits
  posted : Bool            -- a post whose payload has performed and whose start waits
  scaled : Option Scaled
  work : JWork
  offered : Option (List Byte)   -- a reduce rank's contribution to its next beat (R228)
  answer : Option (List Byte)    -- the tree result of that beat
  partnerStopped : Bool          -- a rank it waits on has stopped (R363)
  waitedSince : Option Nat
  waitReported : Bool            -- this wait has written record 0x609 (R363)
deriving DecidableEq, Repr

/-- A message in the landing queue (R229, R248, R361). -/
structure Message where
  launch : Nat
  entry : Nat
  payload : DWord
deriving DecidableEq, Repr

/-- A collection request that waits for a place in the landing queue since a cycle, with its command's stamp (R361). -/
structure LandingWait where
  message : Message
  since : Nat
  stamp : Nat
deriving DecidableEq, Repr

/-! ## Segments and overlays (R41 to R73) -/

/-- States of Table 3.2, with what a moving one is doing. -/
inductive Residency where
  | unborn
  | resident
  | pushed
  | pushing
  | recalling
  | compacting
  | allocating
deriving DecidableEq, Repr

/-- A declared segment. -/
structure Segment where
  size : Nat
  tagged : Bool
  shared : Bool
  readonly : Bool
  zeroed : Bool
  state : Residency
  home : Nat
  ref : Bool
  pins : Nat
  data : Memory
  poison : List Nat       -- poisoned lines
deriving DecidableEq, Repr

/-- An overlay of one line of a tagged segment for one tag. -/
structure Overlay where
  tag : Nat
  seg : Nat
  line : Nat
  state : Residency
  home : Nat
  ref : Bool
  pins : Nat
  slot : Option Nat       -- spill slot, once pushed
  fresh : Bool            -- its granule stands, and the copy and the first write have still to be made, as one (R63)
  data : Memory           -- 64 bytes from 0
  poisoned : Bool
deriving DecidableEq, Repr

/-- The Jacquard binding (R234): node, unique table, cache, weight and order segments. -/
structure JBinding where
  node : Nat
  unique : Nat
  cache : Nat
  weight : Nat
  order : Nat
  nv : Nat
  levels : List Nat       -- the order registers: level of each variable
  handler : Nat
deriving DecidableEq, Repr

/-- A request that waits at a Spindle (R56). -/
structure Waiter where
  stamp : Nat
  loom : Nat
  agent : Nat             -- sequencer 0 to 7, matrix 8, Shuttle 10, Jacquard 11, count-queue fill 12
  launch : Nat
  needs : List Need
  granted : Bool          -- this owner has granted and pins; the request waits for its other owners (R57)
deriving DecidableEq, Repr

/-- What a transfer moves (R51, R52, R45, R63). -/
inductive Move where
  | push (seg : Nat)
  | recall (seg : Nat)
  | compact (seg : Nat) (home : Nat)
  | allocate (seg : Nat)
  | pushOverlay (seg tag line : Nat)
  | recallOverlay (seg tag line : Nat)
  | compactOverlay (seg tag line : Nat) (home : Nat)
  | materialise (seg tag line : Nat)
deriving DecidableEq, Repr

/-- The transfer in progress on a loom. -/
structure Transfer where
  move : Move
  launch : Nat
  payer : Option Nat      -- the tenancy of the agent that causes it, for C22 and C23 (R290); none once that has been reset (R396)
  bytes : Nat             -- what it counts there
  endsAt : Nat
deriving DecidableEq, Repr

/-- The fold of one segment on a loom, which its Spindle has granted: what it keeps pinned, and the lines that are still to be written
(R68). -/
structure Folding where
  seg : Nat
  needs : List Need
  left : List Nat
deriving DecidableEq, Repr
/-- A tret or tfold in progress in a cluster (R68). -/
structure TagOp where
  tag : Nat
  fold : Bool
  launch : Nat
  loom : Nat
  seq : Nat
  stamp : Nat
  endsAt : Nat
  folding : Tab Folding     -- by loom
deriving DecidableEq, Repr

/-! ## The vault (R74 to R83) -/

/-- An access that waits in a vault controller's queue of shared banks (R82). -/
structure SharedAccess where
  id : Nat
  write : Bool
  addr : Nat                 -- byte address in the vault
  bytes : List Byte
  fromLoom : Nat
  seq : Nat
  tenancy : Nat
  launch : Nat
  pick : Nat
  step : Nat
  lane : Nat
  unseen : List KeptBytes    -- of a vldr in a resumed pick: what its own pick has written (R253)
  endsAt : Nat
deriving DecidableEq, Repr

/-- A write of a launch in a loom's shared banks: what other tenancies' launches that begin after it do not find (R307). -/
structure VaultWrite where
  launch : Nat
  tenancy : Nat
  addr : Nat
  len : Nat
  cycle : Nat
deriving DecidableEq, Repr

/-- What an ECC check will find at the next read of a line (R370, R371). -/
inductive EccKind where
  | corrected | uncorrectable | mismatch
deriving DecidableEq, Repr

/-- Where an error lies: a segment line, an overlay, or a vault line. -/
inductive EccPlace where
  | segment (launch seg line : Nat)
  | overlay (launch seg tag line : Nat)
  | vault (line : Nat)
deriving DecidableEq, Repr

/-! ## Observation (R294 to R302) -/

/-- A loom's debug copy for one tenancy. -/
structure DebugCopy where
  ctl : DWord
  drift : Word
  comps : Tab DWord
  counts : Tab Nat
deriving DecidableEq, Repr

/-- A counter contribution or total (R289). -/
structure Counter where
  value : DWord
  sticky : Bool
deriving DecidableEq, Repr

/-! ## A launch on a loom -/

/-- A zld or zset whose entries are not visible to arrivals yet (R223). -/
structure ScaleLoad where
  seq : Nat
  visible : Nat           -- the step of that sequencer, counted over its activations (log 77), from which arrivals see it
  tile : Nat
  entry : Nat
  rows : List Byte
  cols : List Byte
  constant : Option (BitVec 9)
deriving DecidableEq, Repr

/-- Matrix, Shuttle, Jacquard and fill queues. -/
structure Queues where
  matrix : List Cmd
  shuttle : List Cmd
  jacquard : List Cmd
  fill : List Cmd
deriving DecidableEq, Repr

/-- Loom-level state that a full switch saves for the launches of a tenancy (R40, R286). -/
structure Saved where
  seqs : Tab Seq
  acc : Tab Word
  scaleA : Tab Byte
  scaleB : Tab Byte
  scaleConst : Tab (BitVec 9)
  scaleZ : BitVec 8
  scaleLoads : List ScaleLoad
  cq : Tab (List Word)
  queues : Queues
deriving DecidableEq, Repr

/-- A launch as one loom holds it. -/
structure LoomRun where
  tenancy : Nat
  segs : Tab Segment
  overlays : List Overlay       -- ascending segment, tag, line
  handSeg : Nat
  handOverlay : Option (Nat × Nat)
  budget : Nat
  bindings : Tab BarrierRef
  observed : List (BarrierRef × BitVec 5)   -- ER and PH of an object as last observed from this loom (Table 9.11)
  rebound : List (Nat × Nat × Option BarrierRef)   -- (slot, binder, earlier binding) of this cycle (R407)
  jacquard : Option JBinding
  picks : Tab Word              -- the pick store, by word; an unlisted word is zero
  pickBytes : Nat
  uses : BitVec 16
  rank : Nat
  loomset : Nat
  spillShare : Nat
  spillBase : Nat               -- where its share of banks 28 to 31 begins (R47)
  spillWindow : Nat
  windowBytes : Nat             -- bytes of the loom's region of the spill window
  pmax : Option Nat             -- the largest P_max of its sequencers there (R140); none: no bound
  nodeBound : Option Nat        -- the largest bound between two yields (R140); none: no bound
  chunk : DWord
  band : Nat
  quota : Nat
  records : Tab Seq             -- each sequencer record's start state, by sequencer (R161, R20)
  firstStep : Option Nat        -- cycle of the launch's first step on the loom (R78)
  lateWindows : List Nat        -- windows that have written record 0x408 (R378)
  bandReported : Bool
  stallReported : Bool
  placed : Nat                  -- the cycle in which it was placed on the loom (R307)
  suspended : Bool              -- switched out, not restored
deriving DecidableEq, Repr

/-- A switch of a loom in progress (R285, R286). -/
structure Switching where
  outgoing : Nat
  incoming : Option Nat
  reached : List Nat            -- sequencers at their switch point
  atYield : List Nat
  lightLimit : Option Nat       -- the latest cycle at which a light saving may end (R287); none: no bound holds
  fullLimit : Option Nat        -- the same of a full saving
  savesAt : Option Nat          -- the cycle at which the saving ends
  restoresAt : Option Nat       -- the cycle at which the restoring ends
deriving DecidableEq, Repr

/-- An arrival on its way to the bank ALU (R158). -/
structure Arrival where
  object : BarrierRef
  n : Nat
  loom : Nat
  seq : Nat
  tenancy : Nat
  launch : Nat
  pick : Nat
  step : Nat
  waits : Option Nat       -- arrivew: the destination of the status word
deriving DecidableEq, Repr

/-- One loom (Table 2.2 and the rules that name each field). -/
structure Loom where
  resetCycle : Nat
  vxslip : DWord
  runs : Tab LoomRun            -- launches on the loom, by launch
  seqs : Tab Seq
  acc : Tab Word                -- tile elements, at tile * 16384 + row * 128 + column
  scaleA : Tab Byte             -- scale entry bytes, at (tile * 2 + entry) * 128 + row
  scaleB : Tab Byte
  scaleConst : Tab (BitVec 9)   -- at tile * 2 + entry: a constant, as zset left it
  scaleZ : BitVec 8             -- pointer z of each tile
  scaleLoads : List ScaleLoad
  portDue : Option (Option Nat) -- a step at which a scaled sum arrives has issued, with the tile of its zadd (R223)
  cq : Tab (List Word)          -- oldest first
  queues : Queues
  landing : List Message
  landingWaits : List LandingWait   -- collection requests that found it full (R361)
  arriving : List Arrival       -- arrivals of its sequencers, in issue order
  transfer : Option Transfer
  waiters : List Waiter
  vault : Memory
  vaultPoison : List Nat
  unscrubbed : List (Nat × List Nat × List (Nat × Nat))   -- tenancy, banks and (address, bytes) that R383 has yet to zero
  written : List (Nat × Nat)   -- (launch, line): every line of the shared banks that a launch on the device has written (R383)
  lastWrites : List VaultWrite   -- of each byte of the shared banks that such a launch has written, the last write (R307)
  ecc : List (EccPlace × EccKind)
  banks : Tab BankState
  refresh : Tab Nat             -- last refresh of bank * 8 + group
  temperature : Nat             -- 0 to 2 the band that applies, 3 above 105 degrees
  shared : List SharedAccess    -- in arrival order
  remap1 : Bool                 -- copy 1 of the remap table is readable
  remap2 : Bool
  shuttleReleased : Bool        -- the Shuttle's next host write carries Relaxed Ordering clear (R270)
  trace : List (BitVec 128)     -- oldest first
  traceCounts : Tab DWord       -- TRACECOUNT of each tenancy: its records written here since its last dump (R294)
  debug : Tab DebugCopy         -- by tenancy
  compWrites : List (Nat × Nat × DWord)   -- tenancy, comparator and value written in this cycle (R297)
  weights : Tab Byte            -- by tenancy
  holder : Option Nat           -- the tenancy that holds the loom
  lastHolder : Nat              -- the tenancy that held it last (R285)
  quantumEnds : Nat
  switching : Option Switching
  saved : Tab Saved             -- by tenancy
  contained : Bool
  quarantined : Bool
  offline : Bool
  containments : Nat
  resetEnds : Option Nat
  scrubEnds : Option Nat
  counters : Tab Counter        -- at tenancy * 32 + counter: events retired before this cycle
  counting : Tab Nat            -- events of this cycle (R153, R292)
deriving DecidableEq, Repr

/-! ## Launches, streams and tenancies -/

/-- A loomset record (Table 8.11). -/
structure LoomsetRec where
  first : Nat
  count : Nat
  mask : BitVec 16
  uses : BitVec 16
  budget : Nat
  quota : Nat
  footprint : Nat
  spillBytes : Nat
  spillShare : Nat
  spillWindow : Nat
deriving DecidableEq, Repr

/-- A sequencer record (Table 8.12). -/
structure SeqRec where
  loomset : Nat
  seq : Nat
  prio : Nat
  alloc : Nat
  argc : Nat
  entry : Option Nat
  banks : BitVec 32
  reopen : BitVec 32
  args : List DWord
  pmax : Option Nat        -- its .bound record: P_max
  nodeBound : Option Nat   -- NODEB, where the record declares a node bound
deriving DecidableEq, Repr

/-- A declared segment of an image, with its initial bytes (R44, Table 8.8). -/
structure SegDecl where
  loomset : Nat
  seg : Nat
  size : Nat
  tagged : Bool
  shared : Bool
  readonly : Bool
  zeroed : Bool
  init : Option Memory
deriving DecidableEq, Repr

/-- What a relocation's symbol stands for once the runtime has placed it (R88): a window of the tenancy, or a place in the
shared banks of a loom of the cluster. -/
inductive Target where
  | window (index : Nat)
  | shared (loom bank off : Nat)
deriving DecidableEq, Repr

/-- Where a relocation patches its value (R145): a 64-bit word of the picks, of a segment's initial bytes, or of the ARGS of a
sequencer record in .launch (R146). -/
inductive Site where
  | picks (at_ : Nat)
  | segment (loomset seg at_ : Nat)
  | args (record arg : Nat)
deriving DecidableEq, Repr

/-- A relocation of kinds 6 to 8 (Table 8.9). Its 8-byte ADDEND is unsigned: the spec does not say (DESIGN CHOICE, log 68). -/
structure Reloc where
  site : Site
  movk : Bool              -- KWIN: bits 14:3 of a movk's value; else a 64-bit word
  target : Target
  addend : Nat
deriving DecidableEq, Repr

/-- An image as the runtime has loaded it (R146, R147). -/
structure Image where
  picks : Tab Word
  pickBytes : Nat
  chunk : DWord
  band : Nat
  loomsets : List LoomsetRec
  seqs : List SeqRec
  segs : List SegDecl
  windows : Tab (BitVec 128)   -- the window entries that the runtime loads with the launch (R84)
  relocs : List Reloc
deriving DecidableEq, Repr

/-- Where a launch stands (R280, R283). -/
inductive LaunchPhase where
  | reading (nth : Nat) (endsAt : Nat)     -- read nth of the launch block
  | backingOff (nth : Nat) (until_ : Nat)  -- read nth mismatched; the next read issues then
  | copying (next : Nat) (endsAt : Nat)
  | waiting                                -- for its looms
  | running
  | ending      -- ended by R319; its looms release it
  | ended
deriving DecidableEq, Repr

/-- A launch. -/
structure Launch where
  tenancy : Nat
  image : Nat
  place : Nat
  token : Nat
  block : DWord             -- far descriptor of the launch block
  blockBytes : List Byte    -- as last read
  args : List (List DWord)  -- by sequencer record
  pick : DWord
  step : Nat
  phase : LaunchPhase
  looms : List Nat          -- looms that hold it
  accepted : Option Nat     -- the cycle in which its records passed their checks (R336)
  stalled : List Nat        -- looms on which record 0xA2C has been written while it waits (R338)
  faulted : Bool
deriving DecidableEq, Repr

/-- A taga beyond its launch's quota: it stalled at a cycle. -/
structure TagStall where
  since : Nat
  loom : Nat
  seq : Nat
  launch : Nat
  quota : Nat
deriving DecidableEq, Repr

/-- A cluster's tag allocator for one tenancy (R65, R66). -/
structure Allocator where
  live : Tab Nat            -- tag to launch
  promised : Tab Nat        -- granted, and not live until its taga issues (R65)
  ops : List TagOp
  stalled : List TagStall
deriving DecidableEq, Repr

/-- A fault record (Table 22.2). -/
structure FaultRecord where
  word0 : Word
  word1 : Word
  pick : DWord
  step : DWord
  operand : DWord
  launch : Option Nat       -- the launch it belongs to, for FLTRETRY and FLTEND
  command : Option (Nat × Nat)   -- sequencer and stamp of the engine command that stopped, for FLTRETRY
deriving DecidableEq, Repr

/-- A snapshot in progress (R292). -/
structure Snapshot where
  seqno : Nat
  addr : Nat
  bytes : List Byte         -- bytes 0 to 319, as captured
  endsAt : Nat
deriving DecidableEq, Repr

/-- A dump in progress (R302, R404 to R406). -/
structure Dump where
  loom : Nat
  addr : Nat
  image : List Byte         -- from offset 64 upward
  header : List Byte
  small : Bool              -- the image does not fit
  traced : Bool             -- the image holds the loom's trace records
  count : DWord             -- TRACECOUNT at the capture
  poisoned : List Nat       -- lines of the image that are poisoned (R405)
  endsAt : Nat
  later : List (Bool × DWord)   -- writes of DBGRESUME (true) and DBGLOOM (false) that wait, in order
deriving DecidableEq, Repr

/-- A write in a stack's far-write queue (R264). -/
structure FarWrite where
  tenancy : Nat
  launch : Option Nat
  loom : Nat
  agent : Nat
  lane : Nat
  pick : Nat
  step : Nat
  window : Nat
  offset : Nat
  kind : Nat
  peer : Nat
  addr : Nat
  key : BitVec 512
  bytes : List Byte
  poisoned : Bool
  relaxed : Bool
  settled : Bool          -- its target takes it: it is a chunk's, which checked that, or a release has passed it (R384)
  endsAt : Nat
deriving DecidableEq, Repr

/-- One tenancy. -/
structure Tenancy where
  stream : Seq
  streamState : Nat         -- SSTAT.STATE
  streamCode : Nat
  failedLaunch : Option Nat
  spc : DWord
  sarg : DWord
  snapaddr : DWord
  snapnonce : DWord
  snapgo : Bool
  snapstat : DWord
  nextSnap : Nat
  snapshot : Option Snapshot
  windows : Tab (BitVec 128)
  streamWindows : Tab (BitVec 128)   -- the entries that the runtime loads for a stream program as it starts (R84)
  faults : Tab FaultRecord
  fltWr : Nat
  fltCount : Nat
  fltLost : Nat
  msix : Nat
  cecount : Word
  dbgloom : BitVec 11
  dumpaddr : DWord
  dumplen : Word
  dumpgo : Bool
  dumpstat : DWord
  dump : Option Dump
  ports : Tab Counter       -- contributions of the ports, by counter
  saturated : BitVec 26     -- counters whose total has saturated once (R398)
  partition : List Nat
  images : Tab Image
  groups : Tab (Nat × Nat)  -- reduce groups: id * 65536 + rank to (device, loom)
  stoppedRanks : List (Nat × Nat)   -- id * 65536 + rank of each rank whose last reduce stopped with 0x608, with each launch that ran then (R363)
  signals : List (Nat × FarWrite)   -- words of signals that wait for the reads of the launches before a number (R166)
  hostPosted : List HostWrite   -- posted writes of the host that are not visible yet (R393)
  hostRead : Option (Nat × List Byte)   -- the answer to the host's last read
deriving DecidableEq, Repr

/-- An lfd in progress: the landing of a loom's sequencer awaits it (R87, R377). -/
structure FarRead where
  loom : Nat
  seq : Nat
  tenancy : Nat
  launch : Nat
  window : Nat
  offset : Nat
  size : Nat
  issued : Nat
  promise : Nat                  -- P, or 0
  target : Nat × Nat × Nat       -- KIND, peer device, address
  value : List Byte
  found : Option Nat             -- the code that its lines met at the memory, by check value or poison
  endsAt : Nat
  late : Bool
deriving DecidableEq, Repr

/-- One entry of the boot record: a unit number and its STATE (R401). -/
structure BootCopy where
  generation : Word
  valid : Bool
  entries : Tab Nat
deriving DecidableEq, Repr

/-- The persistent boot record and what is out of service for this start. -/
structure Boot where
  copyA : BootCopy
  copyB : BootCopy
  out : List Nat                 -- unit numbers out of service
  recovery : Bool
  imageB : Bool                  -- firmware image B runs (Table 28.6)
deriving DecidableEq, Repr

/-- A membership body's answer (R400). -/
structure Membership where
  status : Nat
  signature : List Byte
deriving DecidableEq, Repr

/-! ## The pick being issued -/

/-- A slot still to do in the pick being issued: a present slot or a held one. -/
structure Todo where
  lane : Lane
  word : Word
  lent : Option (BitVec 10)
  held : Bool
  count : Nat
  offset : Nat
deriving DecidableEq, Repr

/-- A write that the pick makes when all its slots have read (R192). -/
inductive PickWrite where
  | segment (seg tag off : Nat) (bytes : List Byte)
  | far (w : FarWrite)
  | shared (owner : Nat) (a : SharedAccess)
  | release (scope : Nat)                  -- every earlier access performs at the scope first (R202, R266)
  | bind (slot : Nat) (ref : BarrierRef)   -- bbind, from the next step on (R205)
deriving DecidableEq, Repr

/-- Where the control slot of a pick leaves the sequencer (R124). -/
inductive Transfer2 where
  | fallThrough
  | jump (target : Nat) (pops : Bool)   -- a taken brc or jmp pops entries (R37); call, calli and ret do not
  | loopEntry (e : LoopEntry)           -- a loop or loopq with a nonzero count
  | skipBody (last : Nat)               -- a loop with count 0: the body's last pick
  | skipPick                            -- rep with count 0
  | leave                               -- brkl
deriving DecidableEq, Repr

/-- Where a pick's issue ends before its last lane (R298, R314, R326): a slot fault, or a comparator that fires. -/
structure Cut where
  lane : Nat
  code : Nat          -- the fault's code; 0 for a comparator
  comparator : Nat    -- 16: none
  all : Bool          -- ACT 1: the launch's other sequencers on the loom stop too
deriving DecidableEq, Repr

/-- The pick being issued. -/
structure Issue where
  agent : Issuer
  seq : Nat
  pick : Nat
  bytes : Nat
  stop : Bool              -- STOP: the pick ends its group
  present : BitVec 14
  done : BitVec 14         -- lanes that have issued, held repetitions included
  todo : List Todo
  cut : Option Cut
  writes : List PickWrite
  link : Bool              -- call or calli: lr takes the fall-through address (R154)
  control : Transfer2
  rep : Bool               -- the pick is a repetition
  index : Nat              -- i of the repetition
  resumed : Bool
  trapCode : Option Nat    -- a trap (R320)
  halt : Bool
  yields : Bool
  after : Option Wait      -- the wait that begins when the pick has issued
  zadd : Option Nat        -- the tile of the zadd that executes in the pick (R223)
  scaled : List Nat        -- the tiles that the pick's zld and zset slots name (R222)
  vaultBank : Option (Nat × BankState)   -- the scheduled bank that ma's vault command names, as ma found it (0x502)
  bound : List (Nat × Option BarrierRef)   -- of a resumed pick: the barrier slots that it has bound, as they were before (R407)
deriving DecidableEq, Repr

/-- The slot being executed. -/
structure Cur where
  loom : Nat
  seq : Nat
  lane : Lane
  stream : Option Nat      -- the tenancy, for a stream sequencer
  held : Bool
  count : Nat
  offset : Nat
  step : Nat               -- n: the step of the pick
  pick : Nat
deriving DecidableEq, Repr

/-- Progress within one cycle. Agents take their turns in ascending number: looms 0 to 1,279, then the stream sequencers
of tenancies 0 to 63; the last number stands for what follows the picks of the cycle (R20, R156). -/
structure Turn where
  agent : Nat
  stage : Nat                   -- 0: choose; 1: a primary has issued, its pair or a secondary may follow; 2: all issued
  primary : Nat                 -- the primary's sequencer
  ready : List Nat              -- sequencers still to be assessed in this cycle, in merge order
  lanes : BitVec 14             -- lanes used in this cycle, held ones included
  sizes : List Nat              -- lane groups of each vector slot that has issued in this cycle
  banks : List Nat              -- scratchpad banks used by the primary's lines
  open_ : Bool                  -- the primary's next pick belongs to its group
  issued : List Nat             -- sequencers that have issued in this cycle
  causes : Tab Nat              -- row of Table 2.3 for each sequencer that a freeze holds in this cycle
deriving DecidableEq, Repr

end Sys2Proof.Machine
end

