-- ==== Sys2Proof/Machine/State.lean ====
section
/-!
DEFINITION. The state of one device, and the machine right after reset. INVENTORY.md lists every piece with its rule. A
table lists only what differs from its default, so an unlisted loom is a loom as reset left it.
-/

namespace Sys2Proof.Machine

/-- Why the model stops. Every fault that the manual describes is a record that the device writes, and a next state. -/
inductive Fault where
  /-- An event names a loom, sequencer, cluster, tenancy, stack or bank that the device does not have. Raised by the
  events' meanings; safe: no such event happens on the device. -/
  | noSuchAgent
deriving DecidableEq, Repr

/-- Why the model gives no meaning. -/
inductive Refusal where
  /-- The instruction has no meaning yet. Raised by an arm of `exec` alone; safe. -/
  | notModelled (mnemonic : String)
deriving DecidableEq, Repr

/-- One device. -/
structure State where
  cycle : Nat
  epoch : Nat                    -- the first cycle after the last device reset, from which sys.cycles counts (R28)
  deviceNumber : BitVec 12
  domain : Option (BitVec 16)
  looms : Tab Loom
  tenancies : Tab Tenancy
  launches : Tab Launch
  nextLaunch : Nat
  allocators : Tab Allocator     -- at cluster * 64 + tenancy
  tier2 : Memory
  tier2Poison : List Nat
  tier2Ecc : List (Nat × EccKind)   -- what the next read of a line finds (R370)
  host : Memory
  hostWrites : List (Nat × Bool) -- addresses of host writes sent, with Relaxed Ordering (R270), latest first
  hostPoison : List Nat          -- lines of host writes sent with the EP bit (R369)
  peers : Tab Memory
  peerPoison : List Nat          -- peer * 2^64 + line
  lineKeys : Tab (BitVec 512)    -- the key under which a far line is stored (R89): peer * 2^64 + line; 4,096 for tier 2
  farQueues : Tab (List FarWrite)
  farReads : Tab FarRead
  nextId : Nat
  keys : Tab (BitVec 512)
  boot : Boot
  physFaults : List FaultRecord  -- records written to the physical function, latest first (R372)
  physCorrected : Word
  membership : Option Membership
  arrivals : List (Nat × Instr)
  pickPins : List (Nat × Nat × List Need)   -- launch, loom and needs pinned by the picks of this cycle (R53)
  detected : List (Nat × FaultRecord)       -- records of this cycle, by tenancy, as they were detected (R313)
  ends : List Nat                -- launches that a record of this cycle ends, when the cycle ends (R319, R325)
  issue : Option Issue
  cur : Cur
  turn : Turn
  free : Nat
deriving DecidableEq, Repr

/-- A sequencer as the reset leaves it: dormant, every register zero (log 5). -/
def Seq.reset : Seq :=
  { status := .dormant, launch := 0, s := [], v := [], q := [], dt := 0#8, ct := 0#12, li := [], sl := [], rmm := 0#32,
    nanSeen := false, fflags := 0#5, frm := 0#2, pc := 0#64, loops := [], held := [], flight := [], group := [], waitPick := 0, fences := [], steps := 0, past := 0,
    prio := 0#2, vclosed := 0#20, alloc := 48, banks := 0#20, reopen := 0#20, shape := 0#128, window := 0#320,
    results := [], activeSince := 0, eligibleFrom := 0, stopNext := false, tracing := false, frozenCause := 0, frozenRun := 0, pendingSince := none,
    noTag := false, asked := none, answer := none, granted := none, conflictLeft := 0, conflictPaid := false, slipped := false, replaying := none,
    replayed := false, resuming := none, sysReleased := false }

/-- No command queued. -/
def Queues.empty : Queues := { matrix := [], shuttle := [], jacquard := [], fill := [] }

/-- A loom as the reset leaves it. -/
def Loom.reset : Loom :=
  { resetCycle := 0, vxslip := 0#64, runs := [], seqs := [], acc := [], scaleA := [], scaleB := [],
    scaleConst := [], scaleZ := 0#8, scaleLoads := [], portDue := none, cq := [], queues := Queues.empty, landing := [],
    landingWaits := [], arriving := [], transfer := none, waiters := [], vault := [], vaultPoison := [], unscrubbed := [], written := [], lastWrites := [], ecc := [], banks := [],
    refresh := [], temperature := 0, shared := [], remap1 := true, remap2 := true, shuttleReleased := false, trace := [], traceCounts := [],
    debug := [], compWrites := [], weights := [], holder := none, lastHolder := 63, quantumEnds := 0, switching := none, saved := [], contained := false,
    quarantined := false, offline := false, containments := 0, resetEnds := none, scrubEnds := none, counters := [], counting := [] }

/-- A loom's debug copy after reset (R294). -/
def DebugCopy.reset : DebugCopy := { ctl := 0#64, drift := 0xFFFFFFFF#32, comps := [], counts := [] }

/-- A bank that no command has reached. -/
def BankState.closed : BankState :=
  { row := none, lastAct := none, firstAccess := false, lastAccess := none, lastPre := none, lastRef := none,
    refreshEnds := none, switched := 0#8 }

/-- A tenancy as device reset leaves it (Table 16.4, R294, R313). -/
def Tenancy.reset : Tenancy :=
  { stream := Seq.reset, streamState := 0, streamCode := 0, failedLaunch := none, spc := 0#64, sarg := 0#64,
    snapaddr := 0#64, snapnonce := 0#64, snapgo := false, snapstat := 0#64, nextSnap := 1, snapshot := none,
    windows := [], streamWindows := [], faults := [], fltWr := 0, fltCount := 0, fltLost := 0, msix := 0, cecount := 0#32,
    dbgloom := 0x7FF#11, dumpaddr := 0#64, dumplen := 0#32, dumpgo := false, dumpstat := 0#64, dump := none,
    ports := [], saturated := 0#26, partition := [], images := [], groups := [], stoppedRanks := [], signals := [], hostPosted := [], hostRead := none }

/-- A cluster's allocator with every tag free. -/
def Allocator.reset : Allocator := { live := [], promised := [], ops := [], stalled := [] }

/-- A boot record in which every unit runs its primary. -/
def BootCopy.fresh : BootCopy := { generation := 0#32, valid := true, entries := [] }
/-- The boot record as a device leaves its manufacture. -/
def Boot.fresh : Boot := { copyA := BootCopy.fresh, copyB := BootCopy.fresh, out := [], recovery := false, imageB := false }

/-- No slot is being executed (log 8). -/
def Cur.none : Cur :=
  { loom := 0, seq := 0, lane := .sa, stream := Option.none, held := false, count := 0, offset := 0,
    step := 0, pick := 0 }
/-- The first loom's merge is next (log 8). -/
def Turn.start : Turn :=
  { agent := 0, stage := 0, primary := 0, ready := [], lanes := 0#14, sizes := [], banks := [], open_ := false, issued := [],
    causes := [] }

/-- The machine right after device reset. -/
def State.reset : State :=
  { cycle := 0, epoch := 0, deviceNumber := 0#12, domain := none, looms := [], tenancies := [], launches := [], nextLaunch := 0,
    allocators := [], tier2 := [], tier2Poison := [], tier2Ecc := [], host := [], hostWrites := [], hostPoison := [],
    peers := [], peerPoison := [], lineKeys := [], farQueues := [], farReads := [], nextId := 0, keys := [], boot := Boot.fresh,
    physFaults := [], physCorrected := 0#32, membership := none, arrivals := [], pickPins := [], detected := [], ends := [], issue := none, cur := Cur.none,
    turn := Turn.start, free := 0 }

/-- One loom. -/
def State.loom (s : State) (l : Nat) : Loom := Tab.get s.looms l Loom.reset
/-- Replace one loom. -/
def State.setLoom (s : State) (l : Nat) (x : Loom) : State := { s with looms := Tab.put s.looms l x }
/-- Change one loom. -/
def State.updLoom (s : State) (l : Nat) (f : Loom → Loom) : State := s.setLoom l (f (s.loom l))
/-- One tenancy. -/
def State.tenancy (s : State) (t : Nat) : Tenancy := Tab.get s.tenancies t Tenancy.reset
/-- Replace one tenancy. -/
def State.setTenancy (s : State) (t : Nat) (x : Tenancy) : State := { s with tenancies := Tab.put s.tenancies t x }
/-- Change one tenancy. -/
def State.updTenancy (s : State) (t : Nat) (f : Tenancy → Tenancy) : State := s.setTenancy t (f (s.tenancy t))
/-- One sequencer of a loom. -/
def Loom.seq (l : Loom) (q : Nat) : Seq := Tab.get l.seqs q Seq.reset
/-- Replace one sequencer of a loom. -/
def Loom.setSeq (l : Loom) (q : Nat) (x : Seq) : Loom := { l with seqs := Tab.put l.seqs q x }
/-- One sequencer of the device. -/
def State.seq (s : State) (l q : Nat) : Seq := (s.loom l).seq q
/-- Change one sequencer of the device. -/
def State.updSeq (s : State) (l q : Nat) (f : Seq → Seq) : State := s.updLoom l (fun x => x.setSeq q (f (x.seq q)))

end Sys2Proof.Machine
end

