-- ==== Sys2Proof/Machine/Base.lean ====
section
/-!
DEFINITION. The plainest operations that the meanings share: free values and durations, the current sequencer, its
registers and results in flight, counters and fault records.
-/

namespace Sys2Proof.Machine

/-! ## Free values and durations -/

/-- Free bits, the counter advanced (log 7). -/
def State.drawFree (s : State) : VReg × State := (Config.freeValue s.free, { s with free := s.free + 1 })
/-- A duration in cycles that the manual leaves open, the counter advanced (log 9). -/
def State.drawTime (s : State) (p : Config.Process) : Nat × State :=
  (Config.duration p s.free, { s with free := s.free + 1 })
/-- The cycle at which a process begun now ends: at least one cycle later. -/
def State.endOf (s : State) (p : Config.Process) : Nat × State :=
  (s.cycle + 1 + (s.drawTime p).1, (s.drawTime p).2)
/-- An answer from outside the device, the counter advanced (log 42). -/
def State.drawFlag (s : State) (f : Nat → Bool) : Bool × State := (f s.free, { s with free := s.free + 1 })
/-- A fresh number for an access in flight. -/
def State.drawId (s : State) : Nat × State := (s.nextId, { s with nextId := s.nextId + 1 })

/-! ## Numbers -/

/-- Cluster, stack and place of a device loom (R5). -/
def clusterOf (l : Nat) : Nat := l / 16
def stackOf (l : Nat) : Nat := l / 320
def placeOf (l : Nat) : Nat := l % 16
/-- Grid neighbours within a cluster (R6). -/
def neighbours (a b : Nat) : Bool :=
  clusterOf a == clusterOf b &&
  ((a % 4 == b % 4 && (placeOf a / 4 + 1 == placeOf b / 4 || placeOf b / 4 + 1 == placeOf a / 4)) ||
   (placeOf a / 4 == placeOf b / 4 && (a % 4 + 1 == b % 4 || b % 4 + 1 == a % 4)))
/-- The looms of a cluster in ascending number. -/
def loomsOf (cluster : Nat) : List Nat := (List.range 16).map (fun i => 16 * cluster + i)

/-! ## The current sequencer -/

/-- The sequencer whose slot is being executed. -/
def State.me (s : State) : Seq :=
  match s.cur.stream with
  | some t => (s.tenancy t).stream
  | none => s.seq s.cur.loom s.cur.seq
/-- Change the sequencer whose slot is being executed. -/
def State.updMe (s : State) (f : Seq → Seq) : State :=
  match s.cur.stream with
  | some t => s.updTenancy t (fun x => { x with stream := f x.stream })
  | none => s.updSeq s.cur.loom s.cur.seq f
/-- A loom's record of a launch. -/
def Loom.run (l : Loom) (id : Nat) : Option LoomRun := Tab.find? l.runs id
/-- Change a loom's record of a launch. -/
def Loom.updRun (l : Loom) (id : Nat) (f : LoomRun → LoomRun) : Loom :=
  match Tab.find? l.runs id with
  | some r => { l with runs := Tab.put l.runs id (f r) }
  | none => l
/-- The launch of the current sequencer on its loom. -/
def State.myRun (s : State) : Option LoomRun := (s.loom s.cur.loom).run s.me.launch
/-- The tenancy of the current sequencer. -/
def State.myTenancy (s : State) : Nat :=
  match s.cur.stream with
  | some t => t
  | none =>
    match s.myRun with
    | some r => r.tenancy
    | none => 0

/-! ## Registers (R14, R148) -/

/-- A scalar register; s0 reads as zero. -/
def Seq.rdS (q : Seq) (r : Nat) : DWord := if r = 0 then 0#64 else Tab.get q.s r 0#64
/-- A vector register. -/
def Seq.rdV (q : Seq) (r : Nat) : VReg := Tab.get q.v r 0#1024
/-- A predicate register; q0, q8 and q16 read all-true. -/
def Seq.rdQ (q : Seq) (r : Nat) : QReg := if r % 8 = 0 then BitVec.allOnes 128 else Tab.get q.q r 0#128
/-- The bits of a register that a masked write leaves. -/
def merge1024 (old mask value : VReg) : VReg := (old &&& ~~~mask) ||| (value &&& mask)

/-- Write one result to its register. A write to s0, q0, q8 or q16 is discarded (R14). -/
def Seq.deliver (q : Seq) (d : Dest) (mask value : VReg) : Seq :=
  match d with
  | .s r => if r = 0 then q else { q with s := Tab.set q.s r (value.extractLsb' 0 64) 0#64 }
  | .v r => { q with v := Tab.set q.v r (merge1024 (q.rdV r) mask value) 0#1024 }
  | .q r =>
    if r % 8 = 0 then q
    else { q with q := Tab.set q.q r ((merge1024 ((q.rdQ r).zeroExtend 1024) mask value).extractLsb' 0 128) 0#128 }
  | .sl j => { q with sl := Tab.set q.sl j (value.extractLsb' 0 8) 0#8 }
  | .rmm => { q with rmm := value.extractLsb' 0 32, nanSeen := value.getLsbD 32 }
  | .ct => { q with ct := value.extractLsb' 0 12 }
  | .frm => { q with frm := value.extractLsb' 0 2 }
  | .vclosed => { q with vclosed := value.extractLsb' 0 20 }
  | .shape => { q with shape := value.extractLsb' 0 128 }
  | .window => { q with window := value.extractLsb' 0 320 }
  | .count _ | .token _ | .li _ | .busy _ => q

/-- Has the data of every result due by the sequencer's step returned? -/
def Seq.dueReturned (q : Seq) : Bool :=
  q.flight.all (fun l => q.steps < l.step || l.data == .yes)
/-- A write of the group in progress as a result of its register lands: what lands before it is what stood there before it, and what
lands after it is what a later slot reads (R331). -/
def GroupWrite.past (l : Landing) (g : GroupWrite) : Option GroupWrite :=
  if g.dest ≠ l.dest || g.step = l.step then some g
  else if l.step < g.step then some { g with old := merge1024 g.old l.mask l.value }
  else none
/-- One result lands. -/
def Seq.landOne (q : Seq) (l : Landing) : Seq :=
  let q1 := q.deliver l.dest l.mask l.value
  { q1 with group := q1.group.filterMap (GroupWrite.past l) }
/-- Deliver, in the order of their landing steps and then of issue, the results due by the sequencer's step (R25, R26). -/
def Seq.land (q : Seq) : Seq :=
  if q.dueReturned then
    let due := q.flight.filter (fun l => l.step ≤ q.steps)
    let rest := q.flight.filter (fun l => ¬ l.step ≤ q.steps)
    let sorted := sortBy (fun a b => a.step ≤ b.step) due
    sorted.foldl Seq.landOne { q with flight := rest }
  else q

/-- What a register holds. -/
def Seq.content (q : Seq) (d : Dest) : VReg :=
  match d with
  | .s r => (q.rdS r).zeroExtend 1024
  | .v r => q.rdV r
  | .q r => (q.rdQ r).zeroExtend 1024
  | .sl j => (Tab.get q.sl j 0#8).zeroExtend 1024
  | .rmm => (BitVec.ofBool q.nanSeen ++ q.rmm).zeroExtend 1024
  | .ct => q.ct.zeroExtend 1024
  | .frm => q.frm.zeroExtend 1024
  | .vclosed => q.vclosed.zeroExtend 1024
  | .shape => q.shape.zeroExtend 1024
  | .window => q.window.zeroExtend 1024
  | .token k => (BitVec.ofBool (q.dt.getLsbD k)).zeroExtend 1024
  | .li d => (Tab.get q.li d 0#32).zeroExtend 1024
  | .count _ | .busy _ => 0#1024
/-- A number for each register, for the choices of R331. -/
def Dest.number (d : Dest) : Nat :=
  match d with
  | .s r => r | .v r => 64 + r | .q r => 160 + r | .sl j => 184 + j
  | .rmm => 186 | .ct => 187 | .frm => 188 | .vclosed => 189 | .shape => 190 | .window => 191 | .count _ => 192
  | .token k => 200 + k | .li d => 210 + d | .busy t => 220 + t
/-- Is it one of the registers that R24 covers: s, v, q, ct, li, sl, rmm, the tokens and the tiles' busy bits? A write to s0, q0,
q8 or q16 is discarded (R14). -/
def Dest.grouped (d : Dest) : Bool :=
  match d with
  | .s r => r != 0 | .q r => r % 8 != 0
  | .frm | .vclosed | .shape | .window | .count _ => false
  | _ => true
/-- What a slot reads in a register. When an earlier slot of its group writes the register, it is the value before that
write or the value written, and nothing says which (R331); while the value written is not there yet, the value before (log 16). -/
def Seq.view (q : Seq) (d : Dest) : VReg :=
  match q.group.find? (fun g => g.dest == d) with
  | none => q.content d
  | some g =>
    if !g.back || Config.groupChoice q.steps d.number then g.old else merge1024 g.old g.mask g.value
/-- The current sequencer's scalar register, as a slot reads it. -/
def State.rS (s : State) (r : BitVec 6) : DWord := (s.me.view (.s r.toNat)).extractLsb' 0 64
/-- The current sequencer's vector register, as a slot reads it. -/
def State.rV (s : State) (r : Nat) : VReg := s.me.view (.v r)
/-- The current sequencer's predicate register, as a slot reads it. -/
def State.rQ (s : State) (r : Nat) : QReg := (s.me.view (.q r)).extractLsb' 0 128
/-- The current context tag, as a slot reads it. -/
def State.rTag (s : State) : Nat := ((s.me.view .ct).extractLsb' 0 12).toNat

/-- A result of the current slot, landing `lat` steps after the pick's step (R25). -/
def State.landing (s : State) (d : Dest) (lat : Nat) (mask value : VReg) (data : Returned) : Landing :=
  { step := s.cur.step + lat, dest := d, mask := mask, value := value, data := data,
    pick := s.cur.pick, fromStep := s.cur.step, lane := s.cur.lane.index }
/-- Note a write of the group in progress: what the register held before, and what is written. -/
def Seq.note (q : Seq) (d : Dest) (step : Nat) (old mask value : VReg) : Seq :=
  { q with group := { dest := d, old := old, step := step, mask := mask, value := value, back := true } :: q.group }
/-- Does a result wait for an access in flight? -/
def Returned.pending (d : Returned) : Bool :=
  match d with
  | .awaited _ => true
  | _ => false
/-- Put a result in flight; `shown` is the value by which later slots of the group may read it. When an earlier slot of the group
writes the same register, the later of the two landings carries one of the two values, and nothing says which (R331): the earlier
slot's landing is the last in flight for that register and step. So it is too for an so slot whose K and P name one register, of
which R188 says nothing (DESIGN CHOICE, log 65). -/
def Seq.enter (q : Seq) (l : Landing) (shown : VReg) : Seq :=
  if !l.dest.grouped then { q with flight := q.flight ++ [l] }
  else
    let g1 : GroupWrite :=
      { dest := l.dest, old := q.content l.dest, step := l.step, mask := l.mask, value := shown, back := !l.data.pending }
    let noted := fun (f : List Landing) => { q with flight := f, group := g1 :: q.group }
    match q.group.find? (fun g => g.dest == l.dest) with
    | none => noted (q.flight ++ [l])
    | some g =>
      if Config.groupChoice q.steps l.dest.number then noted (q.flight ++ [l])
      else
        match q.flight.reverse.find? (fun f => f.dest == l.dest && f.step == g.step) with
        | none => noted (q.flight ++ [{ l with mask := g.mask, value := g.value }])
        | some f =>
          if f.step ≤ l.step then noted (q.flight ++ [{ l with mask := f.mask, value := f.value, data := f.data }])
          else
            noted (q.flight.map (fun x => if x = f then { f with mask := l.mask, value := l.value, data := l.data } else x) ++ [l])
/-- Put a result in flight: it lands `lat` steps after the pick's step. -/
def State.result (s : State) (d : Dest) (lat : Nat) (mask value : VReg) : State :=
  s.updMe (fun q => q.enter (s.landing d lat mask value .yes) value)
/-- A 64-bit result for s[d]. -/
def State.resultS (s : State) (d : Nat) (lat : Nat) (x : DWord) : State :=
  s.result (.s d) lat (BitVec.allOnes 1024) (x.zeroExtend 1024)
/-- A result whose data an access in flight will bring (R82, R87). -/
def State.resultAwaited (s : State) (d : Dest) (lat : Nat) (mask : VReg) (id : Nat) : State :=
  s.updMe (fun q => q.enter (s.landing d lat mask 0#1024 (.awaited id)) 0#1024)
/-- A result whose data arrives with an error, which stops the sequencer where it would land (R316). -/
def State.resultFailed (s : State) (d : Dest) (lat : Nat) (e : LandingError) : State :=
  s.drawFree.2.updMe (fun q => q.enter (s.landing d lat 0#1024 0#1024 (.failed e)) s.drawFree.1)
/-- Count n events of counter k when the slot's result lands (R185). -/
def State.countLater (s : State) (k lat n : Nat) : State :=
  if n = 0 then s else s.result (.count k) lat 0#1024 (BitVec.ofNat 1024 n)
/-- OR exception flags into fflags (R99). DESIGN CHOICE (log 54): at once, so that an rdsys of sys.fflags in a higher lane of the same
pick sees them. -/
def State.raise (s : State) (f : BitVec 5) : State := s.updMe (fun q => { q with fflags := q.fflags ||| f })

/-! ## Counters (R289, R290) -/

/-- Add to a contribution, saturating (R289). -/
def Counter.add (c : Counter) (n : Nat) : Counter :=
  if c.value.toNat + n > 2 ^ 64 - 1 then { value := 0xFFFFFFFFFFFFFFFF#64, sticky := true }
  else { c with value := BitVec.ofNat 64 (c.value.toNat + n) }
/-- A counter that has counted nothing. -/
def Counter.zero : Counter := { value := 0#64, sticky := false }
/-- A loom's contribution to counter k of a tenancy. -/
def Loom.counter (l : Loom) (t k : Nat) : Counter := Tab.get l.counters (t * 32 + k) Counter.zero
/-- The device total of a counter (R289). -/
def State.counterTotal (s : State) (t k : Nat) : Counter :=
  let parts := List.map (fun (p : Nat × Loom) => p.2.counter t k) s.looms ++ [Tab.get (s.tenancy t).ports k Counter.zero]
  parts.foldl (fun acc c => let r := acc.add c.value.toNat; { r with sticky := r.sticky || c.sticky }) Counter.zero

/-- A tenancy's debug copy on a loom (R294). -/
def Loom.debugOf (l : Loom) (t : Nat) : DebugCopy := Tab.get l.debug t DebugCopy.reset

/-! ## Fault records (R310 to R313) -/

/-- WORD0 of a record (Table 22.3). -/
def recordWord0 (stop outc : Nat) (done : BitVec 14) (code : Nat) : Word :=
  BitVec.ofNat 2 stop ++ BitVec.ofNat 2 outc ++ 0#2 ++ done ++ BitVec.ofNat 12 code
/-- WORD1 of a record (Table 22.3). -/
def recordWord1 (loom tenancy agent lane : Nat) : Word :=
  BitVec.ofNat 11 loom ++ BitVec.ofNat 6 tenancy ++ BitVec.ofNat 4 agent ++ BitVec.ofNat 4 lane ++ 0#7
/-- OPERAND: segment or window, tag, offset or address (Table 22.2). -/
def operandOf (seg tag off : Nat) : DWord := BitVec.ofNat 12 seg ++ BitVec.ofNat 12 tag ++ BitVec.ofNat 40 off

/-- Write a record to a tenancy's circular store and send MSI-X vector 1; with 64 unread records it is lost (R312, R313). -/
def Tenancy.record (t : Tenancy) (r : FaultRecord) : Tenancy :=
  if t.fltCount ≥ 64 then { t with fltLost := min (t.fltLost + 1) 0xFFFF }
  else { t with faults := Tab.put t.faults t.fltWr r, fltWr := (t.fltWr + 1) % 64, fltCount := t.fltCount + 1,
                msix := t.msix + 1 }
/-- An event of this cycle has a record for a tenancy, written when the cycle ends (R313). -/
def State.record (s : State) (t : Nat) (r : FaultRecord) : State := { s with detected := s.detected ++ [(t, r)] }
/-- The order of the records of one cycle (R313): by loom, then agent; the stream sequencer last. -/
def FaultRecord.order (r : FaultRecord) : Nat :=
  let agent := (r.word1.extractLsb' 11 4).toNat
  (r.word1.extractLsb' 21 11).toNat * 16 + (if agent = 14 then 15 else if agent = 15 then 14 else agent)
/-- The records of the cycle that ends are written. -/
def State.writeRecords (s : State) : State :=
  (sortBy (fun (a b : Nat × FaultRecord) => a.2.order ≤ b.2.order) s.detected).foldl
    (fun s p => s.updTenancy p.1 (fun x => x.record p.2)) { s with detected := [] }

/-- Count n events of counter k for a tenancy at a loom; the first saturation of the total writes 0xA11 (R398). -/
def State.noteSaturation (s : State) (t k : Nat) : State :=
  if (s.counterTotal t k).sticky && !(s.tenancy t).saturated.getLsbD k then
    (s.updTenancy t (fun x => { x with saturated := x.saturated ||| (1#26 <<< k) })).record t
      { word0 := recordWord0 3 3 0#14 0xA11, word1 := recordWord1 0x7FF t 15 15, pick := 0#64, step := 0#64,
        operand := BitVec.ofNat 64 k, launch := none, command := none }
  else s
/-- Count at a loom: the events of a cycle are added when the cycle ends, so a reader in it does not see them (R153). -/
def State.count (s : State) (l t k n : Nat) : State :=
  if n = 0 then s
  else s.updLoom l (fun x => { x with counting := Tab.put x.counting (t * 32 + k) (Tab.get x.counting (t * 32 + k) 0 + n) })
/-- Add one loom's events of a cycle to its contributions. -/
def State.retireLoom (s : State) (l : Nat) (events : Tab Nat) : State :=
  match events with
  | [] => s.updLoom l (fun x => { x with counting := [] })
  | (k, n) :: rest =>
    let add := fun (x : Loom) =>
      { x with counters := Tab.put x.counters k ((Tab.get x.counters k Counter.zero).add n) }
    State.retireLoom ((s.updLoom l add).noteSaturation (k / 32) (k % 32)) l rest
/-- Add the events of the cycle that ends to every contribution. -/
def State.retireCounts (s : State) : State :=
  s.looms.foldl (fun s p => if p.2.counting = [] then s else s.retireLoom p.1 p.2.counting) s
/-- Count at a port, or at the stream sequencer. -/
def State.countPort (s : State) (t k n : Nat) : State :=
  if n = 0 then s
  else (s.updTenancy t (fun x =>
    { x with ports := Tab.put x.ports k ((Tab.get x.ports k Counter.zero).add n) })).noteSaturation t k
/-- Count for the current sequencer. -/
def State.countMe (s : State) (k n : Nat) : State :=
  match s.cur.stream with
  | some t => s.countPort t k n
  | none => s.count s.cur.loom s.myTenancy k n

/-- Write a record about an agent of a loom. -/
def State.recordAt (s : State) (l t agent lane stop outc code : Nat) (done : BitVec 14) (pick step : Nat)
    (operand : DWord) (launch : Option Nat) : State :=
  s.record t { word0 := recordWord0 stop outc done code, word1 := recordWord1 l t agent lane,
               pick := BitVec.ofNat 64 pick, step := BitVec.ofNat 64 step, operand := operand, launch := launch, command := none }

/-- A record with STOP 3 and OUTC 3: reported only, nobody stops. A write of FLTEND to it ends the launch all the same (R319). -/
def State.report (s : State) (l t agent lane code pick step : Nat) (operand : DWord) (launch : Option Nat) : State :=
  s.recordAt l t agent lane 3 3 code 0#14 pick step operand launch

end Sys2Proof.Machine
end

