-- ==== Sys2Proof/Machine/Segments.lean ====
section
/-!
DEFINITION. Segments as named local storage (spec/03, spec/04): the cells that a tuple (segment, offset, tag) names, the
checks of Table 24.6, poison and ECC on a line (R368 to R371), and reading and writing a run of cells. Contents follow the
name wherever the Spindle has put it (R260), so none of these operations looks at a home granule.
-/

namespace Sys2Proof.Machine

/-! ## Cells -/

/-- The tag that selects an instance: ignored by an untagged segment (R61). -/
def Segment.tagOf (g : Segment) (tag : Nat) : Nat := if g.tagged then tag else 0
/-- The overlay of a line for a tag. -/
def LoomRun.overlay (r : LoomRun) (seg tag line : Nat) : Option Overlay :=
  r.overlays.find? (fun o => o.seg == seg && o.tag == tag && o.line == line)
/-- The overlay that an agent observes: one whose first write has not been made yet is not there for anybody (R63, R257). -/
def LoomRun.shown (r : LoomRun) (seg tag line : Nat) : Option Overlay :=
  (r.overlay seg tag line).filter (fun o => !o.fresh)
/-- One cell: the overlay's where it exists, else the base's (R62). -/
def LoomRun.cell (r : LoomRun) (seg tag off : Nat) : Byte :=
  match Tab.find? r.segs seg with
  | none => 0#8
  | some g =>
    if g.tagOf tag = 0 then g.data.read off
    else
      match r.shown seg tag (off / 64) with
      | some o => o.data.read (off % 64)
      | none => g.data.read off
/-- n cells from an offset upward. -/
def LoomRun.cells (r : LoomRun) (seg tag off n : Nat) : List Byte :=
  (List.range n).map (fun i => r.cell seg tag (off + i))

/-- One line of a segment's base, as 64 bytes from 0. -/
def lineOf (m : Memory) (line : Nat) : Memory :=
  (m.filter (fun c => decide (c.1 / 64 = line))).map (fun c => (c.1 - 64 * line, c.2))
/-- The place of an overlay in the order of the victim search: segment, tag, line (R72). -/
def Overlay.key (o : Overlay) : Nat := (o.seg * 4096 + o.tag) * 65536 + o.line
/-- Set an overlay, keeping ascending segment, tag and line. -/
def putOverlay (l : List Overlay) (o : Overlay) : List Overlay :=
  match l with
  | [] => [o]
  | p :: r => if p.key = o.key then o :: r else if o.key < p.key then o :: p :: r else p :: putOverlay r o
/-- A fresh overlay: the base line copied, or zero where the base is unborn (R63). -/
def Segment.newOverlay (g : Segment) (seg tag line : Nat) : Overlay :=
  { tag := tag, seg := seg, line := line, state := .resident, home := 0, ref := true, pins := 0, slot := none, fresh := false,
    data := lineOf g.data line, poisoned := g.poison.contains line }

/-- An overlay as its write finds it: a fresh one takes its copy of the base line now (R63). -/
def Segment.written (g : Segment) (o : Overlay) : Overlay :=
  if o.fresh then { o with fresh := false, data := lineOf g.data o.line, poisoned := g.poison.contains o.line } else o
/-- Write one cell. Under a tag the overlay's copy and its first write are one update (R63). -/
def LoomRun.setCell (r : LoomRun) (seg tag off : Nat) (b : Byte) : LoomRun :=
  match Tab.find? r.segs seg with
  | none => r
  | some g =>
    if g.tagOf tag = 0 then
      let g1 : Segment := { g with data := g.data.write off b, ref := true,
                                   state := if g.state = .unborn then .resident else g.state }
      { r with segs := Tab.put r.segs seg g1 }
    else
      let o := g.written ((r.overlay seg tag (off / 64)).getD (g.newOverlay seg tag (off / 64)))
      { r with overlays := putOverlay r.overlays { o with data := o.data.write (off % 64) b, ref := true } }
/-- Write cells from an offset upward. -/
def LoomRun.setCells (r : LoomRun) (seg tag off : Nat) (bs : List Byte) : LoomRun :=
  match bs with
  | [] => r
  | b :: rest => LoomRun.setCells (r.setCell seg tag off b) seg tag (off + 1) rest

/-! ## Poison (R368) -/

/-- The lines that n bytes from an offset touch. -/
def linesOf (off n : Nat) : List Nat :=
  if n = 0 then [] else (List.range ((off + n - 1) / 64 - off / 64 + 1)).map (fun i => off / 64 + i)
/-- Lines wholly replaced by n bytes from an offset. -/
def wholeLines (off n : Nat) : List Nat := (linesOf off n).filter (fun k => off ≤ 64 * k && 64 * k + 64 ≤ off + n)
/-- Is the line that an access under a tag reaches poisoned? -/
def LoomRun.poisoned (r : LoomRun) (seg tag line : Nat) : Bool :=
  match Tab.find? r.segs seg with
  | none => false
  | some g =>
    if g.tagOf tag = 0 then g.poison.contains line
    else
      match r.shown seg tag line with
      | some o => o.poisoned
      | none => g.poison.contains line
/-- Set or clear the poison bit of a line. -/
def LoomRun.setPoison (r : LoomRun) (seg tag line : Nat) (p : Bool) : LoomRun :=
  match Tab.find? r.segs seg with
  | none => r
  | some g =>
    if g.tagOf tag = 0 then
      let rest := g.poison.filter (· ≠ line)
      { r with segs := Tab.put r.segs seg { g with poison := if p then line :: rest else rest } }
    else
      match r.overlay seg tag line with
      | some o => { r with overlays := putOverlay r.overlays { o with poisoned := p } }
      | none => r
/-- Write a run of cells in one access: a line replaced whole loses its poison. -/
def LoomRun.write (r : LoomRun) (seg tag off : Nat) (bs : List Byte) : LoomRun :=
  (wholeLines off bs.length).foldl (fun r k => r.setPoison seg tag k false) (r.setCells seg tag off bs)

/-- Write a run of cells of a launch's segment on a loom. -/
def State.segWrite (s : State) (l id seg tag off : Nat) (bs : List Byte) : State :=
  s.updLoom l (fun x => x.updRun id (fun r => r.write seg tag off bs))

/-! ## ECC (R370, R371) -/

/-- Add to CECOUNT, saturating at 32 bits. -/
def Tenancy.addCorrected (t : Tenancy) : Tenancy :=
  { t with cecount := if t.cecount = 0xFFFFFFFF#32 then t.cecount else t.cecount + 1#32 }
/-- What the check of a line finds, and the line's error consumed. -/
def Loom.takeEcc (l : Loom) (p : EccPlace) : Option EccKind × Loom :=
  match l.ecc.find? (fun e => e.1 == p) with
  | none => (none, l)
  | some e => (some e.2, { l with ecc := l.ecc.erase e })
/-- Where the line that an access under a tag reads lies. -/
def LoomRun.place (r : LoomRun) (id seg tag line : Nat) : EccPlace :=
  match Tab.find? r.segs seg with
  | none => .segment id seg line
  | some g =>
    if g.tagOf tag = 0 || (r.shown seg tag line).isNone then .segment id seg line else .overlay id seg tag line
/-- The code that the read of a line meets: a detection, or a line already poisoned (R369, R371). -/
def State.checkLine (s : State) (l id t seg tag line : Nat) : Option Nat × State :=
  match (s.loom l).run id with
  | none => (none, s)
  | some r =>
    let (found, x) := (s.loom l).takeEcc (r.place id seg tag line)
    let s1 := s.setLoom l x
    let poison := fun (y : State) =>
      y.updLoom l (fun z => z.updRun id (fun r =>
        r.setPoison seg (if (r.shown seg tag line).isNone then 0 else tag) line true))
    match found with
    | some .corrected =>
      (if r.poisoned seg tag line then some 0x910 else none, s1.updTenancy t (fun y => y.addCorrected))
    | some .uncorrectable => (some 0x901, poison s1)
    | some .mismatch => (some 0x904, poison s1)
    | none => (if r.poisoned seg tag line then some 0x910 else none, s1)
/-- The first bad line of several, with its code. -/
def State.checkLines (s : State) (l id t seg tag : Nat) (lines : List Nat) : Option (Nat × Nat) × State :=
  match lines with
  | [] => (none, s)
  | k :: rest =>
    match s.checkLine l id t seg tag k with
    | (some c, s1) => (some (c, k), s1)
    | (none, s1) => State.checkLines s1 l id t seg tag rest

/-! ## The checks of an access (Table 24.6, R379, R369) -/

/-- Is a tag live for a launch in the cluster of a loom (R65)? -/
def State.tagLive (s : State) (l t id tag : Nat) : Bool :=
  match Tab.find? s.allocators (clusterOf l * 64 + t) with
  | none => false
  | some a => Tab.find? a.live tag == some id
/-- Lines without an overlay that a write under a tag would materialise. -/
def LoomRun.newLines (r : LoomRun) (seg tag : Nat) (lines : List Nat) : List Nat :=
  match Tab.find? r.segs seg with
  | none => []
  | some g => if g.tagOf tag = 0 then [] else lines.eraseDups.filter (fun k => (r.overlay seg tag k).isNone)
/-- One access: offsets of its elements and their size. -/
structure Access where
  seg : Nat
  tag : Nat
  offs : List Nat
  size : Nat
  align : Nat
  write : Bool
deriving DecidableEq, Repr
/-- The lines that an access touches. -/
def Access.lines (a : Access) : List Nat := (a.offs.flatMap (fun o => linesOf o a.size)).eraseDups
/-- Bytes that the elements of an access write in a line. -/
def Access.covers (a : Access) (line : Nat) : Bool := a.offs.any (fun o => (wholeLines o a.size).contains line)
/-- The fault that an access meets, with its OUTC and the offset reported: the first of Table 24.6, then the overlay
allowance, then a poisoned line that the write does not replace whole. -/
def State.accessFault (s : State) (l id t : Nat) (a : Access) : Option (Nat × Nat × Nat) :=
  match (s.loom l).run id with
  | none => some (0x212, 0, a.offs.headD 0)
  | some r =>
    match Tab.find? r.segs a.seg with
    | none => some (0x212, 0, a.offs.headD 0)
    | some g =>
      let first := a.offs.headD 0
      if a.write && g.readonly then some (0x213, 0, first)
      else if a.write && g.tagOf a.tag ≠ 0 && !s.tagLive l t id a.tag then some (0x302, 0, first)
      else
        match a.offs.find? (fun o => o % a.align ≠ 0), a.offs.find? (fun o => g.size < o + a.size) with
        | some o, _ => some (0x210, 0, o)
        | none, some o => some (0x211, 0, o)
        | none, none =>
          if a.write && r.budget / 2 < r.overlays.length + (r.newLines a.seg a.tag a.lines).length &&
              (r.newLines a.seg a.tag a.lines) ≠ [] then some (0x303, 0, first)
          else if a.write then
            match a.lines.find? (fun k => r.poisoned a.seg a.tag k && !a.covers k) with
            | some k => some (0x911, 1, 64 * k)
            | none => none
          else none

/-- A run in which the overlays that an access would materialise have taken their entries, so that what follows in the same
pick or chunk is checked beside them (R379). -/
def LoomRun.counting (r : LoomRun) (a : Access) : LoomRun :=
  match Tab.find? r.segs a.seg with
  | some g =>
    if a.write then
      { r with overlays := (r.newLines a.seg a.tag a.lines).foldl (fun l k =>
          putOverlay l { g.newOverlay a.seg a.tag k with fresh := true }) r.overlays }
    else r
  | none => r
/-- The same of a launch on a loom. -/
def State.counting (s : State) (l id : Nat) (a : Access) : State :=
  match (s.loom l).run id with
  | some r => if !a.write || (r.newLines a.seg a.tag a.lines) = [] then s else s.updLoom l (fun x => x.updRun id (fun r => r.counting a))
  | none => s

/-! ## The segment status word (R58) -/

/-- Code of a state (Table 3.2). -/
def Residency.code (r : Residency) : BitVec 2 :=
  match r with
  | .unborn => 0b00#2
  | .resident => 0b01#2
  | .pushed => 0b10#2
  | _ => 0b11#2
/-- Bytes of a segment's spill slot before it: the declared sizes of lower-numbered segments (R47). -/
def LoomRun.slotStart (r : LoomRun) (seg : Nat) : Nat :=
  (r.segs.filter (fun p => p.1 < seg)).foldl (fun n p => n + p.2.size) 0
/-- Does a segment's spill slot lie past SPILLSHARE (R47)? DESIGN CHOICE (log 37): a slot that begins within the share and
ends past it counts as in the window. -/
def LoomRun.inWindow (r : LoomRun) (seg : Nat) (g : Segment) : Bool := r.spillShare < r.slotStart seg + g.size
/-- The status word of Table 3.5; zero for an undeclared segment. -/
def LoomRun.statusWord (r : LoomRun) (seg : Nat) : DWord :=
  match Tab.find? r.segs seg with
  | none => 0#64
  | some g =>
    let home := if g.state = .unborn || g.state = .pushed then 0 else g.home
    g.state.code ++ BitVec.ofBool (decide (0 < g.pins)) ++ BitVec.ofBool g.tagged ++ BitVec.ofBool g.shared ++
      BitVec.ofBool g.readonly ++ BitVec.ofBool g.zeroed ++ BitVec.ofBool g.ref ++ BitVec.ofBool (r.inWindow seg g) ++
      0#7 ++ BitVec.ofNat 16 home ++ BitVec.ofNat 32 g.size

end Sys2Proof.Machine
end

