-- ==== Sys2Proof/Machine/Windows.lean ====
section
/-!
DEFINITION. Far memory: descriptors (Table 7.15), window entries (Table 5.6), the checks of Table 26.5, the targets of R86
with their keys (R89), and reading and writing them through a stack's far-write queue (R264).
-/

namespace Sys2Proof.Machine

/-! ## Descriptors (Table 7.15) -/

/-- K: a far descriptor. -/
def isFar (d : DWord) : Bool := d.getLsbD 63
/-- Window index of a far descriptor. -/
def farWindow (d : DWord) : Nat := (d.extractLsb' 51 12).toNat
/-- Byte offset of a far descriptor. -/
def farOffset (d : DWord) : Nat := (d.extractLsb' 0 51).toNat
/-- Segment, owning loom in the cluster, multicast group, per-use field and offset of a segment descriptor. -/
def descSeg (d : DWord) : Nat := (d.extractLsb' 51 12).toNat
def descLoom (d : DWord) : Nat := (d.extractLsb' 47 4).toNat
def descGroup (d : DWord) : Nat := (d.extractLsb' 43 4).toNat
def descUse (d : DWord) : Nat := (d.extractLsb' 32 11).toNat
def descOff (d : DWord) : Nat := (d.extractLsb' 0 32).toNat

/-! ## Windows (R84 to R87) -/

/-- A tenancy's window entry; an unlisted one has KIND 00. -/
def State.window (s : State) (t w : Nat) : BitVec 128 := Tab.get (s.tenancy t).windows w 0#128
def winKind (e : BitVec 128) : Nat := (e.extractLsb' 126 2).toNat
def winRead (e : BitVec 128) : Bool := e.getLsbD 125
def winWrite (e : BitVec 128) : Bool := e.getLsbD 124
def winFetch (e : BitVec 128) : Bool := e.getLsbD 123
def winKey (e : BitVec 128) : Nat := (e.extractLsb' 107 13).toNat
def winRun (e : BitVec 128) : Nat := (e.extractLsb' 91 16).toNat
def winPeer (e : BitVec 128) : Nat := (e.extractLsb' 79 12).toNat
/-- The target address of an offset (R86). -/
def winTarget (e : BitVec 128) (o : Nat) : Nat := (e.extractLsb' 16 48).toNat * 65536 + o
/-- The latency class: a host entry always has class 0 (R87). -/
def winLat (e : BitVec 128) : Nat := if winKind e = 3 then 0 else (e.extractLsb' 120 3).toNat
/-- The promise P of a latency class (Table 5.7). DESIGN CHOICE (log 39): Table 5.6 gives LAT 0 to 5; 6 and 7 are as 5. -/
def promise (lat : Nat) : Nat := if lat = 0 then 0 else 128 * 2 ^ min lat 5
/-- The first check of Table 26.5 that fails, of an access that its entry permits or not. -/
def State.windowCheck (s : State) (t : Nat) (d : DWord) (size align : Nat) (permits : BitVec 128 → Bool) : Option Nat :=
  let e := s.window t (farWindow d)
  if !isFar d then some 0x401
  else if winKind e = 0 then some 0x402
  else if !permits e then some 0x403
  else if farOffset d % align ≠ 0 then some 0x404
  else if winRun e * 65536 < farOffset d + size then some 0x405
  else none
/-- The check of a read or a write. `align` is 8 for lfd and sfd, 1 elsewhere. -/
def State.windowFault (s : State) (t : Nat) (d : DWord) (size align : Nat) (write : Bool) : Option Nat :=
  s.windowCheck t d size align (if write then winWrite else winRead)
/-- OPERAND of a window fault: window index and offset. -/
def farOperand (d : DWord) : DWord := operandOf (farWindow d) 0 (farOffset d)

/-! ## Targets -/

/-- The bytes of tier-2 memory, and of one of its eight stacks (R10). -/
def tier2Bytes : Nat := 640 * 2 ^ 30
def hbmBytes : Nat := 80 * 2 ^ 30
/-- Unit number of an HBM stack in the boot record. -/
def unitHbm (k : Nat) : Nat := 3 + k
/-- Unit number of the PCIe link in the boot record, and whether the link is out of service for this start (R402). -/
def unitPcie : Nat := 2
def State.linkDown (s : State) : Bool := s.boot.out.contains unitPcie
/-- Is a target out of reach: a tier-2 address past the memory, or in a stack that is offline (R377, R403), a peer of a device that
belongs to no domain (R8), or the host while the link is out of service (R402)? DESIGN CHOICE (log 58): the manual gives eight stacks
of 80 GiB and no mapping of addresses to them (R10); stack k holds the k-th 80 GiB of tier-2 memory. -/
def State.unreachable (s : State) (kind addr : Nat) : Bool :=
  (kind == 1 && (tier2Bytes ≤ addr || s.boot.out.contains (unitHbm (addr / hbmBytes)))) || (kind == 2 && s.domain.isNone) ||
  (kind == 3 && s.linkDown)
/-- What the target of a far access answers at once (R377): nothing where it is out of reach (0x407); another device, and the host to a
read, may refuse (0x407); and the host's completion may come poisoned (0x905, R371). Which, is free (log 42). -/
def State.farAnswer (s : State) (kind addr : Nat) (write : Bool) : Option Nat × State :=
  if s.unreachable kind addr then (some 0x407, s)
  else if kind = 1 || (kind = 3 && write) then (none, s)
  else
    let refused := s.drawFlag Config.targetRefuses
    if refused.1 then (some 0x407, refused.2)
    else if kind = 3 then
      let bad := refused.2.drawFlag Config.hostPoisons
      (if bad.1 then some 0x905 else none, bad.2)
    else (none, refused.2)
/-- The memory of a target. DESIGN CHOICE (log 33): the host's IOMMU maps an address of every virtual function to itself, in
one host memory. DESIGN CHOICE (log 34): a PEER that is the device's own number names a memory in `peers` like any other. -/
def State.farMemory (s : State) (kind peer : Nat) : Memory :=
  if kind = 1 then s.tier2 else if kind = 2 then Tab.get s.peers peer [] else s.host
/-- Replace the memory of a target. -/
def State.setFarMemory (s : State) (kind peer : Nat) (m : Memory) : State :=
  if kind = 1 then { s with tier2 := m }
  else if kind = 2 then { s with peers := Tab.put s.peers peer m }
  else { s with host := m }
/-- The place of a far line in the tables of keys and of poison. -/
def farLine (kind peer line : Nat) : Nat := (if kind = 1 then 4096 else peer) * 2 ^ 64 + line
/-- One byte of a far target as a key reads it (R89). Lines are stored in encrypted form in tier-2 memory and in peer memory; a line of
the host is encrypted on its way alone, and host memory holds what the host sees (DEDUCED, log 60). -/
def State.farByte (s : State) (kind peer : Nat) (key : BitVec 512) (a : Nat) : Byte :=
  let m := s.farMemory kind peer
  if kind = 3 then m.read a
  else
    match Tab.find? s.lineKeys (farLine kind peer (a / 64)) with
    | none => m.read a
    | some k =>
      if k = key then m.read a
      else (otherKey k key (a / 64) (m.readBytes (64 * (a / 64)) 64)).getD (a % 64) 0#8
/-- Does a line that a key reads differ from its check value, which was made of the bytes as they were written (R90)? -/
def State.farMismatch (s : State) (kind peer : Nat) (key : BitVec 512) (line : Nat) : Bool :=
  kind ≠ 3 && match Tab.find? s.lineKeys (farLine kind peer line) with
  | none => false
  | some k =>
    let bs := (s.farMemory kind peer).readBytes (64 * line) 64
    k ≠ key && crc32c (otherKey k key line bs) ≠ crc32c bs
/-- Bytes of a far target. -/
def State.farBytes (s : State) (kind peer : Nat) (key : BitVec 512) (a n : Nat) : List Byte :=
  (List.range n).map (fun i => s.farByte kind peer key (a + i))
/-- Take a line over under a key: its bytes are what that key reads. -/
def State.takeLine (s : State) (kind peer : Nat) (key : BitVec 512) (line : Nat) : State :=
  let k := farLine kind peer line
  if Tab.find? s.lineKeys k = some key then s
  else
    let bs := s.farBytes kind peer key (64 * line) 64
    let s1 := s.setFarMemory kind peer ((s.farMemory kind peer).writeBytes (64 * line) bs)
    { s1 with lineKeys := Tab.put s1.lineKeys k key }
/-- Is a line of a target poisoned (R368)? -/
def State.farPoison (s : State) (kind peer line : Nat) : Bool :=
  if kind = 1 then s.tier2Poison.contains line else if kind = 2 then s.peerPoison.contains (farLine 2 peer line) else false
/-- Set or clear the poison of a line. -/
def State.setFarPoison (s : State) (kind peer line : Nat) (p : Bool) : State :=
  if kind = 1 then
    { s with tier2Poison := (if p then [line] else []) ++ s.tier2Poison.filter (· ≠ line) }
  else if kind = 2 then
    let k := farLine 2 peer line
    { s with peerPoison := (if p then [k] else []) ++ s.peerPoison.filter (· ≠ k) }
  else { s with hostPoison := (if p then [line] else []) ++ s.hostPoison.filter (· ≠ line) }
/-- Write bytes at a target under a key; a line replaced whole loses its poison, and poison travels with the bytes. -/
def State.farStore (s : State) (kind peer : Nat) (key : BitVec 512) (a : Nat) (bs : List Byte) (poisoned : Bool) : State :=
  let s1 := if kind = 3 then s else (linesOf a bs.length).foldl (fun s k => s.takeLine kind peer key k) s
  let s2 := s1.setFarMemory kind peer ((s1.farMemory kind peer).writeBytes a bs)
  if poisoned then (linesOf a bs.length).foldl (fun s k => s.setFarPoison kind peer k true) s2
  else (wholeLines a bs.length).foldl (fun s k => s.setFarPoison kind peer k false) s2

/-! ## Far-write queues (R264) -/

/-- Put a write in a stack's far-write queue (R264). -/
def State.queueFar (s : State) (stack : Nat) (w : FarWrite) : State :=
  { s with farQueues := Tab.put s.farQueues stack (Tab.get s.farQueues stack [] ++ [w]) }
/-- Make one queued write. -/
def State.performFar (s : State) (w : FarWrite) : State := s.farStore w.kind w.peer w.key w.addr w.bytes w.poisoned
/-- What an agent of a stack reads at a far target: the youngest queued write of its stack, else the home's bytes. -/
def State.farSeen (s : State) (stack kind peer : Nat) (key : BitVec 512) (a n : Nat) : List Byte :=
  let q := (Tab.get s.farQueues stack []).filter (fun w => w.kind == kind && w.peer == peer)
  (q.foldl (fun s w => s.performFar w) s).farBytes kind peer key a n
/-- Is any line that an access reads poisoned, queued writes included? -/
def State.farSeenPoison (s : State) (stack kind peer a n : Nat) : Bool :=
  let q := (Tab.get s.farQueues stack []).filter (fun w => w.kind == kind && w.peer == peer)
  (linesOf a n).any (fun k => (q.foldl (fun s w => s.performFar w) s).farPoison kind peer k)
/-- The tenancy that owns a tier-2 line: the first whose window table maps it. A line that none maps is nobody's (R370). -/
def State.tier2Owner (s : State) (line : Nat) : Option Nat :=
  (List.find? (fun (p : Nat × Tenancy) => p.2.windows.any (fun w =>
    winKind w.2 = 1 && winTarget w.2 0 ≤ 64 * line && 64 * line < winTarget w.2 0 + winRun w.2 * 65536)) s.tenancies).map (·.1)
/-- A corrected error in a line of an owner is counted (R370). -/
def State.countCorrected (s : State) (owner : Option Nat) : State :=
  match owner with
  | some t => s.updTenancy t (fun y => y.addCorrected)
  | none => { s with physCorrected := if s.physCorrected = 0xFFFFFFFF#32 then s.physCorrected else s.physCorrected + 1#32 }
/-- The check of a tier-2 line at its memory (R370): what is found there poisons it, or is corrected and counted. -/
def State.checkTier2 (s : State) (line : Nat) : Option Nat × State :=
  match s.tier2Ecc.find? (fun e => e.1 = line) with
  | none => (none, s)
  | some e =>
    let s1 := { s with tier2Ecc := s.tier2Ecc.erase e }
    match e.2 with
    | .corrected => (none, s1.countCorrected (s.tier2Owner line))
    | .uncorrectable => (some 0x903, s1.setFarPoison 1 0 line true)
    | .mismatch => (some 0x904, s1.setFarPoison 1 0 line true)
/-- A record to the physical function (R372). -/
def State.recordPhysical (s : State) (l code : Nat) (operand : DWord) : State :=
  { s with physFaults :=
      { word0 := recordWord0 3 3 0#14 code, word1 := recordWord1 l 0 15 15, pick := 0#64, step := 0#64, operand := operand,
        launch := none, command := none } :: s.physFaults }
/-- What a peer's read finds in a tier-2 line of this device is reported here to the tenancy that owns the line, else to the physical
function, with the controller as the agent and the line's address in OPERAND (R371; DESIGN CHOICE, log 45: the reader is no agent of
this device, and its own record, of a transfer marked poisoned, is the peer's). -/
def State.reportTier2 (s : State) (code line : Nat) : State :=
  let at_ := BitVec.ofNat 64 (64 * line)
  match s.tier2Owner line with
  | some t => s.report 0x7FF t 15 15 code 0 0 at_ none
  | none => s.recordPhysical 0x7FF code at_
/-- The check of far lines that an agent of a stack reads under a key, queued writes included: the first code that one meets
(R369 to R371), at the memory, by its check value, or by its poison. -/
def State.checkFar (s : State) (stack kind peer : Nat) (key : BitVec 512) (lines : List Nat) : Option Nat × State :=
  match lines with
  | [] => (none, s)
  | k :: rest =>
    let c := if kind = 1 then s.checkTier2 k else (none, s)
    let q := (Tab.get s.farQueues stack []).filter (fun w => w.kind == kind && w.peer == peer)
    let seen := q.foldl (fun s w => s.performFar w) c.2
    if c.1.isSome then c
    else if seen.farPoison kind peer k then (some (if kind = 2 then 0x905 else 0x910), c.2)
    else if seen.farMismatch kind peer key k then (some 0x904, c.2.setFarPoison kind peer k true)
    else State.checkFar c.2 stack kind peer key rest
/-- The key of a window entry. -/
def State.keyOf (s : State) (e : BitVec 128) : BitVec 512 := Tab.get s.keys (winKey e) 0#512
/-- Count the bytes of a far access (R210): tier-2, host and fabric, for a read or a write. -/
def State.countFar (s : State) (l t kind : Nat) (write : Bool) (n : Nat) : State :=
  let k := if kind = 1 then 15 else if kind = 3 then 17 else 19
  s.count l t (if kind = 2 then (if write then 19 else 20) else if write then k + 1 else k) n
/-- Count the bytes of a far write that performs: sfd's (R210). A Shuttle's count when its chunk retires (R231), and the
word of a stream's signal, which is no memory slot's, counts nowhere. -/
def State.countWrite (s : State) (w : FarWrite) : State :=
  if w.agent = 10 || w.agent = 14 then s else s.countFar w.loom w.tenancy w.kind true w.bytes.length
/-- A host write leaves the PCIe port: it performs at sys scope, with its Relaxed Ordering attribute (R270). A poisoned
one carries the EP bit and writes record 0x906 (R369). -/
def State.hostStore (s : State) (w : FarWrite) : State :=
  let s0 := (s.performFar w).countWrite w
  let s1 := { s0 with hostWrites := (w.addr, w.relaxed) :: s0.hostWrites }
  if w.poisoned then
    s1.report (if w.loom < 1280 then w.loom else 0x7FF) w.tenancy w.agent w.lane 0x906 w.pick w.step
      (operandOf w.window 0 w.offset) w.launch
  else s1
/-- A far write sets out: a host write leaves the port, any other enters its stack's queue. With the link out of service a host
write stays there too, and is lost. -/
def State.sendFar (s : State) (w : FarWrite) : State :=
  if w.kind = 3 && !s.linkDown then s.hostStore w
  else
    let d := s.drawTime .farWrite
    d.2.queueFar (stackOf w.loom) { w with endsAt := s.cycle + 1 + d.1 }
/-! ## Pick fetch -/

/-- A word of a loom's pick store, or of the window that a stream program lies in; none past the end, or where the window
refuses a fetch: that needs PF, and no PR (Table 5.6, R277, R343, R376). -/
def State.pickWord (s : State) (a : Nat) : Option Word :=
  match s.cur.stream with
  | none =>
    match s.myRun with
    | none => none
    | some r => if a < r.pickBytes then some (Tab.get r.picks (a / 4) 0#32) else none
  | some t =>
    let d := BitVec.ofNat 64 a
    let e := s.window t (farWindow d)
    if (s.windowCheck t d 4 1 winFetch).isSome then none
    else
      some (BitVec.ofNat 32 (leNat (s.farSeen (stackOf s.cur.loom) (winKind e) (winPeer e) (s.keyOf e)
        (winTarget e (farOffset d)) 4)))
/-- Bytes of the pick at an address: 16 for each quad (R110); one quad where its header is not there. -/
def State.pickSize (s : State) (a : Nat) : Nat :=
  match s.pickWord a with
  | some h => 16 * ((h.extractLsb' 30 2).toNat + 1)
  | none => 16
/-- The words of the pick at an address, none if any lies past the end (R343). -/
def State.pickWords (s : State) (a : Nat) : Option (List Word) :=
  ((List.range (s.pickSize a / 4)).map (fun i => s.pickWord (a + 4 * i))).foldr
    (fun w l => match w, l with
      | some w, some l => some (w :: l)
      | _, _ => none) (some [])
/-- The address of the pick n picks further on. -/
def State.picksOn (s : State) (a n : Nat) : Nat :=
  match n with
  | 0 => a
  | n + 1 => State.picksOn s (a + s.pickSize a) n

end Sys2Proof.Machine
end

