-- ==== Sys2Proof/Machine/Ops.lean ====
section
/-!
DEFINITION. The operations that end or suspend work: the writes of a pick, waiting, tokens, ending a launch, and stops.

Taking an exception on this hardware is a STOP (R314, R316, R319, R320): the record is written to the tenancy's store,
the sequencer stops with its done mask, and the host's DBGRESUME returns from it (R317). `stopSlot` is the precise stop,
`stopWhole` the trap's, `stopLanding` the landing stop and `resumeSeq` the return.
-/

namespace Sys2Proof.Machine

/-! ## Accesses of shared banks (R82) -/

/-- Change a sequencer of a launch on a loom, switched out or not (R286). -/
def Loom.updSeqOf (l : Loom) (q id : Nat) (f : Seq → Seq) : Loom :=
  let g := fun (t : Tab Seq) =>
    match Tab.find? t q with
    | some x => if x.launch = id && x.status ≠ .dormant then Tab.put t q (f x) else t
    | none => t
  { l with seqs := g l.seqs, saved := Tab.map l.saved (fun v => { v with seqs := g v.seqs }) }
/-- The data of an access returns to the landing that awaits it, and later slots of its group may read it (R331). -/
def Seq.bring (q : Seq) (id : Nat) (value : VReg) (data : Returned) : Seq :=
  let mine := fun (g : GroupWrite) => q.flight.any (fun l => l.data = .awaited id && l.dest = g.dest && l.step = g.step)
  { q with
    flight := q.flight.map (fun l => if l.data = .awaited id then { l with value := value, data := data } else l)
    group := q.group.map (fun g => if !g.back && data = .yes && mine g then { g with value := value, back := true } else g) }
/-- OPERAND of a vault line: bank in bits 39:32, row and column in bits 15:0 (R369). -/
def vaultOperand (addr : Nat) : DWord :=
  BitVec.ofNat 64 ((addr / 2097152) * 2 ^ 32 + (addr / 8192 % 256) * 256 + addr / 128 % 64)
/-- The check of vault lines that are read: the first bad line with its code (R369, R371). -/
def State.checkVault (s : State) (l t : Nat) (lines : List Nat) : Option (Nat × Nat) × State :=
  match lines with
  | [] => (none, s)
  | k :: rest =>
    let (found, x) := (s.loom l).takeEcc (.vault k)
    let s1 := s.setLoom l x
    let poison := fun (y : State) => y.updLoom l (fun z => { z with vaultPoison := k :: z.vaultPoison.filter (· ≠ k) })
    match found with
    | some .uncorrectable => (some (0x902, k), poison s1)
    | some .mismatch => (some (0x904, k), poison s1)
    | some .corrected =>
      let s2 := s1.updTenancy t (fun y => y.addCorrected)
      if x.vaultPoison.contains k then (some (0x910, k), s2) else State.checkVault s2 l t rest
    | none => if x.vaultPoison.contains k then (some (0x910, k), s1) else State.checkVault s1 l t rest
/-- What a range of addresses has left outside another. -/
def outside (a n b m : Nat) : List (Nat × Nat) :=
  let left := (a, min n (b - a))
  let right := (max a (b + m), a + n - max a (b + m))
  [left, right].filter (fun r => 0 < r.2)
/-- A launch has written bytes of a loom's shared banks: their lines are among those that it wrote (R383), it is their last writer,
and of what earlier launches left there they are scrubbed no more. -/
def Loom.noteWritten (l : Loom) (id t cycle addr n : Nat) : Loom :=
  let w : VaultWrite := { launch := id, tenancy := t, addr := addr, len := n, cycle := cycle }
  { l with
    written := ((linesOf addr n).map (fun k => (id, k))).filter (fun x => !l.written.contains x) ++ l.written
    lastWrites := w :: l.lastWrites.flatMap (fun x => (outside x.addr x.len addr n).map (fun r => { x with addr := r.1, len := r.2 }))
    unscrubbed := l.unscrubbed.map (fun u => (u.1, u.2.1, u.2.2.flatMap (fun r => outside r.1 r.2 addr n))) }
/-- Does a byte of the shared banks hold what a running launch of another tenancy wrote before a launch began? To that launch, which
finds no data of another tenancy, it reads as zero (R307; that the other's data is kept for its own reads is DESIGN CHOICE, log 78). -/
def Loom.foreign (l : Loom) (t since a : Nat) : Bool :=
  l.lastWrites.any (fun w => w.tenancy ≠ t && w.cycle < since && w.addr ≤ a && a < w.addr + w.len)
/-- Bytes of the shared banks as a launch of a tenancy finds them. -/
def Loom.bankBytes (l : Loom) (t since addr n : Nat) : List Byte :=
  (l.vault.readBytes addr n).zipIdx.map (fun b => if l.foreign t since (addr + b.2) then 0#8 else b.1)
/-- The lines of these that hold nothing of another tenancy's: the others are not read, and raise no fault. -/
def Loom.ownLines (l : Loom) (t since : Nat) (lines : List Nat) : List Nat :=
  lines.filter (fun k => !(List.range 64).any (fun j => l.foreign t since (64 * k + j)))
/-- The cycle in which a launch was placed on a loom. -/
def State.placedAt (s : State) (l id : Nat) : Nat := (((s.loom l).run id).map (·.placed)).getD 0
/-- Bytes read at a place as they were before what a stopped pick has written there: a byte that still holds what its lanes wrote
reads as it was, and one that another agent has written since reads as that left it (R253). -/
def unseenBytes (ks : List KeptBytes) (p : WritePlace) (addr : Nat) (bs : List Byte) : List Byte :=
  ks.foldl (fun bs k =>
    if k.place ≠ p then bs
    else bs.zipIdx.map (fun b =>
      if k.addr ≤ addr + b.2 && k.new[addr + b.2 - k.addr]? == some b.1 then k.old.getD (addr + b.2 - k.addr) b.1 else b.1)) bs
/-- The owner's vault controller serves one access of a shared bank (R82): the bytes of a vstr are written, and those of a
vldr go to the landing that awaits them. -/
def State.serveAccess (s : State) (owner : Nat) (a : SharedAccess) : State :=
  if a.write then
    (s.updLoom owner (fun x => ({ x with
      vault := x.vault.writeBytes a.addr a.bytes
      vaultPoison := x.vaultPoison.filter (fun k => !(wholeLines a.addr a.bytes.length).contains k) } : Loom).noteWritten a.launch
        a.tenancy s.cycle a.addr a.bytes.length)).count a.fromLoom a.tenancy 21 a.bytes.length
  else
    let x := s.loom owner
    let since := s.placedAt a.fromLoom a.launch
    let value := BitVec.ofNat 1024 (leNat (unseenBytes a.unseen (.vault owner) a.addr (x.bankBytes a.tenancy since a.addr 128)))
    let c := s.checkVault owner a.tenancy (x.ownLines a.tenancy since (linesOf a.addr 128))
    let data := match c.1 with
      | some (code, k) => Returned.failed { code := code, operand := vaultOperand (64 * k) }
      | none => .yes
    (c.2.updLoom a.fromLoom (fun x => x.updSeqOf a.seq a.launch (fun q => q.bring a.id value data))).count a.fromLoom a.tenancy 21 128
/-- Serve every access that waits at one controller. -/
def State.serveAll (s : State) (owner : Nat) : State :=
  let q := (s.loom owner).shared
  q.foldl (fun s a => s.serveAccess owner a) (s.updLoom owner (fun x => { x with shared := [] }))
/-- Change the pick in progress. -/
def State.updIssue (s : State) (f : Issue → Issue) : State := { s with issue := s.issue.map f }

/-! ## Waiting and waking (R21, R22) -/

/-- The current pick does not issue: its sequencer leaves the ready set. -/
def State.waitFor (s : State) (w : Wait) : State :=
  { s.updMe (fun q => { q with status := .waiting w }) with issue := none }
/-- The current pick does not issue now: its sequencer stays in the ready set, frozen (Table 2.3). -/
def State.hold (s : State) : State := { s with issue := none }
/-- The wait of the current sequencer that begins when the pick has issued. -/
def State.thenWait (s : State) (w : Wait) : State :=
  match s.issue with
  | some _ => s.updIssue (fun i => { i with after := some w })
  | none => s.updMe (fun q => { q with status := .waiting w })
/-- The row of Table 2.3 of a sequencer that is out of the ready set; 0 for one that is stopped. -/
def Seq.awayCause (q : Seq) : Nat :=
  match q.status with
  | .waiting (.barrier _ _ _ _) => 2
  | .waiting (.tokens _) => 3
  | .waiting (.tag _) => 4
  | .waiting (.tagOp _) => 4
  | .waiting (.watch _ _ _) => 5
  | _ => 0
/-- Back into the ready set, eligible from the next cycle (R22). -/
def Seq.wake (q : Seq) (cycle : Nat) : Seq :=
  { q with
    status := .ready, eligibleFrom := cycle + 1
    frozenCause := if q.awayCause ≠ 0 then q.awayCause else if q.frozenRun = 0 then 0 else q.frozenCause }

/-! ## Dependency tokens (R160, R212, R360) -/

/-- Are the named tokens all set? -/
def Seq.tokensSet (q : Seq) (mask : BitVec 8) : Bool := q.dt &&& mask == mask
/-- The tokens as a slot reads them (R331). -/
def Seq.dtView (q : Seq) : BitVec 8 :=
  (List.range 8).foldl (fun m k => if (q.view (.token k)).getLsbD 0 then m ||| (1#8 <<< k) else m) 0#8
/-- Does a slot read the named tokens as all set? -/
def Seq.seesTokens (q : Seq) (mask : BitVec 8) : Bool := q.dtView &&& mask == mask
/-- Wake a sequencer that reads the tokens it waits for as set (R331). -/
def Seq.wakeTokens (q : Seq) (cycle : Nat) : Seq :=
  match q.status with
  | .waiting (.tokens m) => if q.seesTokens m then q.wake cycle else q
  | _ => q
/-- Set a token. It is set for the later slots of a group that has cleared it, too (R331). -/
def Seq.setToken (q : Seq) (k cycle : Nat) : Seq :=
  ({ q with dt := q.dt ||| (1#8 <<< k), group := q.group.filter (fun g => !(g.dest == Dest.token k)) }).wakeTokens cycle
/-- Of results that land in queue order, the last for each register: what an earlier one wrote there is gone. -/
def lastResults (rs : List JResult) : List JResult :=
  match rs with
  | [] => []
  | r :: rest => if rest.any (fun x => x.dest = r.dest) then lastResults rest else r :: lastResults rest
/-- Clear tokens at the current pick. The results of jq commands that set them land at the next step, in queue order
(R239). -/
def State.clearTokens (s : State) (mask : BitVec 8) : State :=
  let hit := fun (r : JResult) => mask.getLsbD r.token
  let rs := s.me.results.filter hit
  let note := fun (q : Seq) (k : Nat) =>
    if mask.getLsbD k then q.note (.token k) (s.cur.step + 1) (q.content (.token k)) (BitVec.allOnes 1024) 0#1024 else q
  let s1 := s.updMe (fun q =>
    { (List.range 8).foldl note q with dt := q.dt &&& ~~~mask, results := q.results.filter (fun r => !hit r) })
  (lastResults rs).foldl (fun s r => s.resultS r.dest 1 r.value) s1
/-- Set a token of the stream sequencer (R166, R281). -/
def State.setStreamToken (s : State) (t k : Nat) : State :=
  s.updTenancy t (fun x => { x with stream := x.stream.setToken k s.cycle })
/-- Set a token of a loom's sequencer while it belongs to a launch. -/
def State.setSeqToken (s : State) (l q id k : Nat) : State :=
  s.updLoom l (fun x => x.updSeqOf q id (fun y => y.setToken k s.cycle))

/-! ## Becoming active and dormant (R16, R17, R19) -/

/-- The state of a sequencer that becomes active (R17); `from_` is the first cycle in which it may issue (R161), from which its drift
counts: a first pick that nothing freezes has drift 0 (R164; DEDUCED, log 56). -/
def Seq.activated (launch : Nat) (pc : DWord) (args : List DWord) (rec : Seq) (from_ : Nat) : Seq :=
  let start := { Seq.reset with
    status := .ready, launch := launch, pc := pc, prio := rec.prio, alloc := rec.alloc, banks := rec.banks,
    reopen := rec.reopen, activeSince := from_, eligibleFrom := from_ }
  let put := fun (p : Nat × Tab DWord) (a : DWord) => (p.1 + 1, Tab.set p.2 p.1 a 0#64)
  { start with s := (args.foldl put (1, ([] : Tab DWord))).2 }
/-- An activation after another of the same launch: the steps of its banks' distances go on (R76, R353), and a release at sys scope
before it still marks its next host write (R270). -/
def Seq.follows (new old : Seq) : Seq :=
  { new with past := if old.launch = new.launch then old.past + old.steps else 0
             sysReleased := old.launch = new.launch && old.sysReleased }
/-- Dormant: results in flight are discarded and no lane is held (R19, R34). -/
def Seq.sleep (q : Seq) : Seq :=
  { q with status := .dormant, flight := [], held := [], loops := [], results := [], resuming := none,
           pendingSince := none, noTag := false, asked := none, answer := none, granted := none, replaying := none, stopNext := false, frozenCause := 0,
           frozenRun := 0, group := [], fences := [] }

/-! ## Pins, and the requests that wait at a Spindle (R53, R56, R57) -/

/-- Pin, or unpin, what a need names (R56). -/
def LoomRun.pin (r : LoomRun) (n : Need) (up : Bool) : LoomRun :=
  let change := fun (k : Nat) => if up then k + 1 else k - 1
  match n with
  | .segment seg _ =>
    match Tab.find? r.segs seg with
    | some g => { r with segs := Tab.put r.segs seg { g with pins := change g.pins, ref := g.ref || up } }
    | none => r
  | .overlay seg tag line _ =>
    match r.overlay seg tag line with
    | some o => { r with overlays := putOverlay r.overlays { o with pins := change o.pins, ref := o.ref || up } }
    | none => r
/-- Pin, or unpin, needs of a launch on a loom. -/
def Loom.pins (l : Loom) (id : Nat) (ns : List Need) (up : Bool) : Loom :=
  l.updRun id (fun r => ns.foldl (fun r n => r.pin n up) r)
/-- The same request: a Shuttle may have several, with stamps of their own. -/
def Waiter.same (a b : Waiter) : Bool := a.loom = b.loom && a.agent = b.agent && a.stamp = b.stamp
/-- Requests wait no longer on a loom: what it had granted to them is no longer pinned. -/
def Loom.dropWaiters (l : Loom) (out : Waiter → Bool) : Loom :=
  (l.waiters.filter (fun w => out w && w.granted)).foldl (fun l w => l.pins w.launch w.needs false)
    { l with waiters := l.waiters.filter (fun w => !out w) }

/-! ## Interlock traces (R300, R301) -/

/-- A trace record (Table 17.3). -/
def traceRecord (kind seq lane low pick mid : Nat) (step : Nat) : BitVec 128 :=
  BitVec.ofNat 4 kind ++ BitVec.ofNat 3 seq ++ BitVec.ofNat 4 lane ++ BitVec.ofNat 7 low ++ BitVec.ofNat 14 (pick / 16) ++
    BitVec.ofNat 32 mid ++ BitVec.ofNat 64 step
/-- TRACECOUNT of a tenancy: the records of its sequencers written on a loom since its last dump of it, saturating (R294). -/
def Loom.tracecount (l : Loom) (t : Nat) : DWord := Tab.get l.traceCounts t 0#64
/-- Write a trace record of a loom: the oldest of 256 makes room. It counts for the tenancy that holds the loom. -/
def Loom.addTrace (l : Loom) (r : BitVec 128) : Loom :=
  let t := l.holder.getD l.lastHolder
  let n := l.tracecount t
  { l with trace := (if 256 ≤ l.trace.length then l.trace.tail else l.trace) ++ [r],
           traceCounts := if n = BitVec.allOnes 64 then l.traceCounts else Tab.put l.traceCounts t (n + 1#64) }
/-- The address and the step of the pick that a sequencer has still to issue: a resumed pick keeps its own. -/
def Seq.nextPick (q : Seq) : Nat × Nat :=
  match q.resuming with
  | some st => (st.pick, st.step)
  | none => (q.pc.toNat, q.steps)
/-- A sequencer's run of frozen cycles ends: while its tracing is armed it writes its record. -/
def Loom.endRun (l : Loom) (q : Nat) : Loom :=
  let x := l.seq q
  if x.frozenRun = 0 then l
  else
    let l1 := if x.tracing then
        l.addTrace (traceRecord 2 q 0 x.frozenCause x.nextPick.1 (min x.frozenRun (2 ^ 32 - 1)) x.nextPick.2)
      else l
    l1.setSeq q { x with frozenRun := 0, frozenCause := 0 }
/-- The runs of a launch's sequencers end with it. -/
def Loom.endRuns (l : Loom) (id : Nat) : Loom :=
  (l.seqs.filter (fun p => p.2.launch = id && p.2.status ≠ .dormant)).foldl (fun l p => l.endRun p.1) l

/-! ## Ending a launch (R319) -/

/-- What of a queue stays when a launch ends: a command in a chunk goes on to the chunk's end, and nothing follows it. -/
def dropCommands (l : List Cmd) (id : Nat) : List Cmd :=
  (l.filter (fun c => c.launch ≠ id || c.chunk.isSome)).map (fun c =>
    if c.launch = id then { c with token := none, done := true, scaled := none } else c)
/-- The queues with a launch's commands dropped. -/
def Queues.dropLaunch (q : Queues) (id : Nat) : Queues :=
  { matrix := dropCommands q.matrix id, shuttle := dropCommands q.shuttle id,
    jacquard := dropCommands q.jacquard id, fill := dropCommands q.fill id }
/-- Commands of a launch in the queues. -/
def Queues.of (q : Queues) (id : Nat) : List Cmd :=
  (q.matrix ++ q.shuttle ++ q.jacquard ++ q.fill).filter (fun c => c.launch = id)
/-- A sequencer of a launch that ends. -/
def Seq.endWith (q : Seq) (id : Nat) : Seq := if q.status ≠ .dormant && q.launch = id then q.sleep else q
/-- Banks assigned to the sequencers of a launch. -/
def LoomRun.ownBanks (r : LoomRun) : List Nat :=
  (List.range 20).filter (fun b => r.records.any (fun p => p.2.banks.getLsbD b))
/-- Does an address lie in one of several ranges? -/
def inRanges (rs : List (Nat × Nat)) (a : Nat) : Bool := rs.any (fun r => r.1 ≤ a && a < r.1 + r.2)
/-- The vault controller writes zero to banks and to ranges, but for the lines that it keeps (R383). A line that is zero from end to
end carries no poison and no error. -/
def Loom.scrub (l : Loom) (banks : List Nat) (ranges : List (Nat × Nat)) (keep : Nat → Bool) : Loom :=
  let hit := fun (a : Nat) => (banks.contains (a / 2097152) || inRanges ranges a) && !keep (a / 64)
  let whole := fun (k : Nat) => (List.range 64).all (fun j => hit (64 * k + j))
  { l with
    vault := l.vault.filter (fun c => !hit c.1)
    vaultPoison := l.vaultPoison.filter (fun k => !whole k)
    ecc := l.ecc.filter (fun e => match e.1 with
      | .vault k => !whole k
      | _ => true) }
/-- Scrub what other tenancies than one have left on a loom. -/
def Loom.scrubOthers (l : Loom) (t : Nat) : Loom :=
  (l.unscrubbed.filter (fun u => u.1 ≠ t)).foldl (fun l u => l.scrub u.2.1 u.2.2 (fun _ => false))
    { l with unscrubbed := l.unscrubbed.filter (fun u => u.1 = t) }
/-- Scrub what is owed before a launch of a tenancy comes to own banks: all that other tenancies left, and of its own
tenancy's a free choice of the lines, a poisoned one always (R307). What is kept is owed still, but for the banks that the
launch takes over. -/
def Loom.scrubFor (l : Loom) (t draw : Nat) (own : List Nat) : Loom :=
  let x := l.scrubOthers t
  x.unscrubbed.foldl (fun x u => x.scrub u.2.1 u.2.2 (fun k => !Config.scrubbed draw k && !x.vaultPoison.contains k))
    { x with unscrubbed := x.unscrubbed.map (fun u => (u.1, u.2.1.filter (fun b => !own.contains b), u.2.2)) }
/-- What a launch leaves to be scrubbed on a loom, its banks and every line of the shared banks that it wrote there; its accesses to
the shared banks end. -/
def Loom.owe (l : Loom) (id t : Nat) (banks : List Nat) : Loom :=
  let mine := (l.written.filter (fun w => w.1 = id)).map (fun w => (64 * w.2, 64))
  { l with
    unscrubbed := if (banks = [] && mine = []) || l.unscrubbed.contains (t, banks, mine) then l.unscrubbed
      else (t, banks, mine) :: l.unscrubbed
    written := l.written.filter (fun w => w.1 ≠ id), lastWrites := l.lastWrites.filter (fun w => w.launch ≠ id), shared := l.shared.filter (fun a => a.launch ≠ id)
    banks := l.banks.filter (fun p => !banks.contains p.1) }
/-- A loom whose holder has no launch on it any more is free; a tenancy with none has nothing saved. -/
def Loom.settle (l : Loom) : Loom :=
  let here := fun (t : Nat) => l.runs.any (fun p => p.2.tenancy = t)
  let l1 := { l with saved := l.saved.filter (fun p => here p.1) }
  match l.holder with
  | none => l1
  | some t => if here t then l1 else { l1 with holder := none, lastHolder := t }
/-- A launch leaves a loom: segments, overlays, bindings and waits go, its banks pass to the controller, which scrubs them
until a cycle (R75, R383). While a chunk of it is in progress its record stays until the chunk's end. -/
def Loom.leave (l : Loom) (id scrubbed : Nat) : Loom :=
  match l.run id with
  | none => l
  | some r =>
    let l := l.endRuns id
    let qs := l.queues.dropLaunch id
    let l1 := { l with
      runs := if qs.of id = [] then Tab.drop l.runs id else l.runs
      seqs := Tab.map l.seqs (fun q => q.endWith id)
      queues := qs
      landing := l.landing.filter (fun m => m.launch ≠ id)
      landingWaits := l.landingWaits.filter (fun w => w.message.launch ≠ id)
      arriving := l.arriving.filter (fun a => a.launch ≠ id)
      waiters := l.waiters.filter (fun w => w.launch ≠ id)
      scaleLoads := l.scaleLoads.filter (fun x => (l.seq x.seq).launch ≠ id)
      scrubEnds := some scrubbed
      saved := Tab.map l.saved (fun v => { v with
        seqs := Tab.map v.seqs (fun q => q.endWith id), queues := v.queues.dropLaunch id }) }
    (l1.owe id r.tenancy r.ownBanks).settle
/-- Free every tag of a launch in every cluster (R73, R319). -/
def State.freeTags (s : State) (id : Nat) : State :=
  { s with allocators := Tab.map s.allocators (fun a => { a with
      live := a.live.filter (fun x => x.2 ≠ id)
      promised := a.promised.filter (fun x => x.2 ≠ id)
      ops := a.ops.filter (fun o => o.launch ≠ id)
      stalled := a.stalled.filter (fun x => x.launch ≠ id) }) }
/-- Hosts some loom of the cluster of a loom a launch of another tenancy, which could find there what a tenancy has left? -/
def State.strangersNear (s : State) (l t : Nat) : Bool :=
  (loomsOf (clusterOf l)).any (fun o => (s.loom o).runs.any (fun p => p.2.tenancy ≠ t))
/-- A loom whose cluster hosts another tenancy is scrubbed at once of what a tenancy leaves there; else that waits until one comes to
the cluster (R383). -/
def State.scrubNear (s : State) (l t : Nat) : State :=
  if (s.loom l).unscrubbed ≠ [] && s.strangersNear l t then s.updLoom l (fun x => x.scrubFor 64 0 []) else s
/-- Every loom lets a launch of a tenancy go: its tags are free, and what it held and wrote is to be scrubbed. -/
def State.release (s : State) (id t : Nat) : State :=
  let (e, s1) := (s.freeTags id).endOf .scrub
  s1.looms.foldl (fun s p => s.scrubNear p.1 t) { s1 with looms := Tab.map s1.looms (fun l => (l.leave id e).owe id t []) }
/-- End a launch on every loom of it (R319). Its stream token follows when every loom has released it. -/
def State.endLaunchNow (s : State) (id : Nat) : State :=
  match Tab.find? s.launches id with
  | none => s.release id 0
  | some x =>
    let s2 := s.release id x.tenancy
    if x.phase = .ended then s2
    else
      { s2 with launches := Tab.put s2.launches id { x with faulted := true, phase := .ending } }
/-- A record of this cycle ends a launch: when the cycle ends, so that what else befalls its agents in it is reported too (R325). -/
def State.endLaunch (s : State) (id : Nat) : State := if s.ends.contains id then s else { s with ends := s.ends ++ [id] }
/-- The launches that the records of the cycle end. -/
def State.endLaunches (s : State) : State := s.ends.foldl State.endLaunchNow { s with ends := [] }

/-! ## Far writes that perform (R264, R266, R377) -/

/-- A write of a stack's queue reaches its target, or is lost there: 0x407 (R377). What a Shuttle's chunk writes is settled: its
chunk has met its target before it moved anything. -/
def State.landFar (s : State) (w : FarWrite) (accepted : Bool) : State :=
  if (accepted || w.settled) && !s.unreachable w.kind w.addr then (s.performFar w).countWrite w
  else
    s.report (if w.loom < 1280 then w.loom else 0x7FF) w.tenancy w.agent w.lane 0x407 w.pick w.step
      (operandOf w.window 0 w.offset) w.launch
/-- The far writes of a stack's queue, all performed. -/
def State.drainFar (s : State) (stack : Nat) : State :=
  let q := Tab.get s.farQueues stack []
  let s1 := { s with farQueues := Tab.drop s.farQueues stack }
  q.foldl (fun s w => s.landFar w true) s1
/-- A release that does not wait for the writes of a stack's queue passes them: those whose targets are out of reach are lost, with
their records (R377), and no other is refused any more (R384). -/
def State.settleFar (s : State) (stack : Nat) : State :=
  let q := Tab.get s.farQueues stack []
  let lost := fun (w : FarWrite) => s.unreachable w.kind w.addr
  let left := (q.filter (fun w => !lost w)).map (fun w => { w with settled := true })
  if q = left then s
  else (q.filter lost).foldl (fun s w => s.landFar w false) { s with farQueues := Tab.put s.farQueues stack left }

/-! ## Writes of the pick in progress (R192) -/

/-- Every earlier access of the current sequencer, and what happens before it, performs at a scope (R202, R266): the shared
banks of the cluster are served; from device scope upward the stack's far writes perform, and below it those that are lost
have their records written, and the others are settled (R384). -/
def State.performEarlier (s : State) (l scope : Nat) : State :=
  let s1 := if l < 1280 then (loomsOf (clusterOf l)).foldl (fun s o => s.serveAll o) s else s
  if 3 ≤ scope then s1.drainFar (stackOf l) else s1.settleFar (stackOf l)
/-- The current sequencer has made a release at a scope: at sys scope its next host write carries Relaxed Ordering clear
(R270). -/
def State.noteRelease (s : State) (scope : Nat) : State :=
  if scope = 5 then s.updMe (fun q => { q with sysReleased := true }) else s
/-- Bind a barrier slot (R205, R407): the other sequencers see it from the next cycle. -/
def LoomRun.bind (r : LoomRun) (slot seq : Nat) (ref : BarrierRef) : LoomRun :=
  { r with bindings := Tab.put r.bindings slot ref,
           rebound := r.rebound ++ [(slot, seq, Tab.find? r.bindings slot)] }
/-- The Shuttle of a loom has made a release at a scope, once every earlier access has performed there (R266, R270). -/
def State.shuttleRelease (s : State) (l scope : Nat) : State :=
  let s1 := s.performEarlier l scope
  if scope = 5 then s1.updLoom l (fun x => { x with shuttleReleased := true }) else s1
/-- Make one write of the current sequencer; its first host write after a sys-scope release is not relaxed (R270). -/
def State.commitWrite (s : State) (w : PickWrite) : State :=
  match w with
  | .segment seg tag off bs => s.segWrite s.cur.loom s.me.launch seg tag off bs
  | .far f =>
    if f.kind = 3 then (s.sendFar { f with relaxed := !s.me.sysReleased }).updMe (fun q => { q with sysReleased := false })
    else s.sendFar f
  | .shared owner a => s.updLoom owner (fun x => { x with shared := x.shared ++ [a] })
  | .release scope => (s.performEarlier s.cur.loom scope).noteRelease scope
  | .bind slot ref => s.updLoom s.cur.loom (fun x => x.updRun s.me.launch (fun r => r.bind slot s.cur.seq ref))
/-- Make the writes of the pick in progress, in their order: ma before mb. -/
def State.commitWrites (s : State) : State :=
  match s.issue with
  | none => s
  | some i => { i.writes.foldl State.commitWrite s with issue := some { i with writes := [] } }
/-- A write of the current slot: it performs after every plain read of its pick. -/
def State.bufferWrite (s : State) (w : PickWrite) : State :=
  match s.issue with
  | some i => { s with issue := some { i with writes := i.writes ++ [w] } }
  | none => s.commitWrite w
/-- What a write of the pick in progress is about to overwrite. -/
def State.keptOf (s : State) (w : PickWrite) : Option KeptBytes :=
  match w with
  | .segment seg tag off bs =>
    s.myRun.map (fun r => { place := .segment seg tag, addr := off, old := r.cells seg tag off bs.length, new := bs })
  | .far w =>
    some { place := .far w.kind w.peer, addr := w.addr, new := w.bytes
           old := s.farSeen (stackOf w.loom) w.kind w.peer w.key w.addr w.bytes.length }
  | .shared owner a =>
    some { place := .vault owner, addr := a.addr, new := a.bytes
           old := (((s.loom owner).shared.filter (·.write)).foldl (fun (m : Memory) x => m.writeBytes x.addr x.bytes)
             (s.loom owner).vault).readBytes a.addr a.bytes.length }
  | .release _ | .bind _ _ => none
/-- What the lanes of the current sequencer's resumed pick have written already (R253). -/
def State.keptBytes (s : State) : List KeptBytes := (s.me.resuming.map (·.kept)).getD []
/-- What the lanes of the pick in progress have written, once they perform. -/
def State.keptHere (s : State) : List KeptBytes :=
  s.keptBytes ++ match s.issue with
    | some i => i.writes.filterMap s.keptOf
    | none => []
/-- A run as it stood before what a stopped pick has written in its segments. -/
def LoomRun.unseen (r : LoomRun) (ks : List KeptBytes) : LoomRun :=
  ks.foldl (fun r k =>
    match k.place with
    | .segment seg tag => r.setCells seg tag k.addr (unseenBytes [k] k.place k.addr (r.cells seg tag k.addr k.old.length))
    | _ => r) r
/-- What an atomic reads of its segment: the writes of the pick so far have performed for it (R192). -/
def State.atomicRun (s : State) : Option LoomRun :=
  let ws := match s.issue with
    | some i => i.writes
    | none => []
  let add := fun (r : LoomRun) (w : PickWrite) =>
    match w with
    | .segment seg tag off bs => r.write seg tag off bs
    | _ => r
  s.myRun.map (fun r => ws.foldl add r)

/-! ## Stops: taking an exception (R314, R390) -/

/-- Count the current pick as a step (R23), once: the partial issue of a stopped pick is its step, and a resumed pick adds
none (R298, R299). -/
def State.countStep (s : State) : State :=
  match s.issue with
  | some i => if i.resumed then s else (s.updMe (fun q => { q with steps := q.steps + 1 })).countMe 25 1
  | none => s
/-- Lanes of the pick in progress that have issued. -/
def State.lanesDone (s : State) : BitVec 14 :=
  match s.issue with
  | some i => i.done
  | none => 0#14
/-- The current sequencer stops within its pick: the writes of the lanes that issued perform, and nothing else of the pick
issues. -/
def State.stopHere (s : State) (st : Stop) : State :=
  let s1 := s.commitWrites.countStep
  { s1.updMe (fun q => { q with status := .stopped st, resuming := none, group := [] }) with issue := none }
/-- Barrier slots that the pick in progress has bound, each with its binding before the pick (R407). -/
def State.boundHere (s : State) : List (Nat × Option BarrierRef) :=
  match s.issue with
  | none => []
  | some i => i.bound ++ i.writes.filterMap (fun w =>
      match w with
      | .bind slot _ => some (slot, s.myRun.bind (fun r => Tab.find? r.bindings slot))
      | _ => none)
/-- The stop of the current pick at a lane. -/
def State.stopAt (s : State) (code lane comparator : Nat) : Stop :=
  { code := code, done := s.lanesDone, lane := lane, comparator := comparator, pick := s.cur.pick, step := s.cur.step,
    counted := true, zadd := s.issue.bind (·.zadd), bank := s.issue.bind (·.vaultBank), bound := s.boundHere, kept := s.keptHere, whole := false }
/-- The record of a stop of the current sequencer, and its effect: OUTC 1 ends the launch; a stream sequencer enters
STATE 3, with OUTC 0 (R330, R390). -/
def State.reportStop (s : State) (code outc lane : Nat) (done : BitVec 14) (pick step : Nat) (operand : DWord)
    (stop : Nat) : State :=
  match s.cur.stream with
  | some t =>
    (s.updTenancy t (fun x => { x with streamState := 3, streamCode := code, failedLaunch := none })).recordAt 0x7FF t 14
      lane stop 0 code done pick step operand none
  | none =>
    let id := s.me.launch
    let s1 := s.recordAt s.cur.loom s.myTenancy s.cur.seq lane stop outc code done pick step operand (some id)
    if outc = 1 then s1.endLaunch id else s1
/-- A precise stop of the current slot: record, done mask, and with OUTC 1 the launch ends. -/
def State.stopSlot (s : State) (code outc : Nat) (operand : DWord) : State :=
  let lane := s.cur.lane.index
  (s.stopHere (s.stopAt code lane 16)).reportStop code outc lane s.lanesDone s.cur.pick s.cur.step operand 0
/-- A pick fault: the pick does not issue at all (R326). -/
def State.stopPick (s : State) (code : Nat) : State :=
  let st : Stop := { code := code, done := 0#14, lane := 15, comparator := 16, pick := s.cur.pick, step := s.cur.step,
                     counted := false, zadd := none, bank := none, bound := [], kept := [], whole := false }
  let s1 := s.updMe (fun q => { q with status := .stopped st })
  s1.reportStop code 1 15 0#14 s.cur.pick s.cur.step 0#64 0
/-- A landing stop (R316): an error in a result stops the sequencer before the pick at which it would land. A stream sequencer, which
no launch's end discards, is left without the result, so that it can go on (log 59). -/
def State.stopLanding (s : State) (l : Landing) (e : LandingError) : State :=
  let st : Stop := { code := e.code, done := 0#14, lane := l.lane, comparator := 16, pick := l.pick, step := l.fromStep,
                     counted := false, zadd := none, bank := none, bound := [], kept := [], whole := false }
  let s1 := s.updMe (fun q => { q with
    status := .stopped st, flight := if s.cur.stream.isSome then q.flight.erase l else q.flight })
  s1.reportStop e.code 1 l.lane 0#14 l.pick l.fromStep e.operand 2
/-- A trap: its pick has issued whole, and the sequencer stops before its next pick (R320). -/
def State.stopWhole (s : State) (code : Nat) (present : BitVec 14) : State :=
  let st : Stop := { code := code, done := present, lane := 13, comparator := 16, pick := s.cur.pick, step := s.cur.step,
                     counted := true, zadd := none, bank := none, bound := [], kept := [], whole := true }
  let s1 := s.updMe (fun q => { q with status := .stopped st })
  s1.reportStop code 0 13 present s.cur.pick s.cur.step 0#64 0
/-- Return from a stop (R299, R317): the undone lanes of the pick issue as the same step; after a trap the next pick
follows. A sequencer that a landing error or a pick fault stopped belongs to a launch that has ended. -/
def Seq.resume (q : Seq) (cycle : Nat) : Seq :=
  match q.status with
  | .stopped st => { q.wake cycle with resuming := if st.counted && !st.whole then some st else none }
  | _ => q
/-- Resume one sequencer of a loom. -/
def State.resumeSeq (s : State) (l q : Nat) : State := s.updSeq l q (fun x => x.resume s.cycle)
/-- Is a sequencer stopped (DBGSTOP, R294)? -/
def Seq.isStopped (q : Seq) : Bool :=
  match q.status with
  | .stopped _ => true
  | _ => false
/-- A stop before the next whole pick: done mask 0, no lane. -/
def Seq.standing (q : Seq) : Stop :=
  { code := 0, done := 0#14, lane := 15, comparator := 16, pick := q.pc.toNat, step := q.steps, counted := false,
    zadd := none, bank := none, bound := [], kept := [], whole := false }
/-- Stop a sequencer before its next whole pick (R298, ACT 1). -/
def Seq.stopBefore (q : Seq) : Seq :=
  match q.status with
  | .dormant => q
  | .ready =>
    if q.resuming.isSome then { q with stopNext := true }
    else { q with stopNext := false, status := .stopped q.standing }
  | .stopped st => if st.counted && !st.whole then { q with stopNext := true } else q
  | .waiting _ => { q with stopNext := true }

end Sys2Proof.Machine
end

