-- ==== Sys2Proof/Machine/Operands.lean ====
section
/-!
DEFINITION. Operand forms: how each kind of slot reads its operands at issue and where its result goes (R148, R167, R190,
R211). The meanings of spec/09 to spec/13 are written over these.
-/

namespace Sys2Proof.Machine

/-! ## Scalar slots (R148) -/

/-- b of an immediate form: imm, sign-extended. -/
def immValue (imm : BitVec 22) : DWord := imm.signExtend 64
/-- A result of two operands, I = 0. -/
def State.scalarReg (s : State) (o : ScalarReg) (lat : Nat) (f : DWord → DWord → DWord) : State :=
  s.resultS o.d.toNat lat (f (s.rS o.a) (s.rS o.b))
/-- A result of a register and an immediate, I = 1. -/
def State.scalarImm (s : State) (o : ScalarImm) (lat : Nat) (f : DWord → DWord → DWord) : State :=
  s.resultS o.d.toNat lat (f (s.rS o.a) (immValue o.imm))
/-- A result of one operand. -/
def State.scalarUnary (s : State) (o : ScalarUnary) (lat : Nat) (f : DWord → DWord) : State :=
  s.resultS o.d.toNat lat (f (s.rS o.a))
/-- c of csel and bins with I = 0: the lent register, or s[D]. -/
def selC (o : ScalarSel) (s : State) : DWord := s.rS (o.c.getD o.d)
/-- A result of a, b and c. -/
def State.scalarSel (s : State) (o : ScalarSel) (lat : Nat) (f : DWord → DWord → DWord → DWord) : State :=
  s.resultS o.d.toNat lat (f (s.rS o.a) (s.rS o.b) (selC o s))
/-- A result of a, imm and s[D]. -/
def State.scalarSelImm (s : State) (o : ScalarImm) (lat : Nat) (f : DWord → DWord → DWord → DWord) : State :=
  s.resultS o.d.toNat lat (f (s.rS o.a) (immValue o.imm) (s.rS o.d))

/-- A binary64 result with its flags, counted in C12 (R151, R290). -/
def State.fp64 (s : State) (d : BitVec 6) (lat : Nat) (r : Rounded) : State :=
  ((s.raise r.flags).resultS d.toNat lat (BitVec.ofNat 64 r.code)).countMe 12 1

end Sys2Proof.Machine
end

