-- ==== Sys2Proof/Machine/MemPort.lean ====
section
/-!
DEFINITION. The memory lanes ma and mb on segments: loads, stores, gathers, scatters, cross-tag loads, atomics, fences,
acquires and releases, and the barrier-object slots (spec/11 R190 to R206, R350 to R352, R387, R389).
-/

namespace Sys2Proof.Machine

/-! ## Addresses (R190, R34) -/

/-- off of the Segment form: s[O], imm6 scaled, and the hidden offset of a held repetition. Offsets do not wrap. -/
def State.segOffset (s : State) (o : BitVec 6) (imm6 : BitVec 6) (scale : Nat) : Nat :=
  (s.rS o).toNat + imm6.toNat * scale + s.cur.offset
/-- The fault of an access of the current sequencer. -/
def State.myFault (s : State) (a : Access) : Option (Nat × Nat × Nat) :=
  s.accessFault s.cur.loom s.me.launch s.myTenancy a
/-- Perform an access after its checks (Table 24.6): a fault stops the slot precisely with the offset in OPERAND. -/
def State.checked (s : State) (a : Access) (f : State → State) : State :=
  match s.myFault a with
  | some (code, outc, off) => s.stopSlot code outc (operandOf a.seg a.tag off)
  | none => f s
/-- The cells of a run, as a plain read of the pick finds them: none of its own pick's writes, in a resumed pick neither those that
performed as it stopped (R192, R253). -/
def State.readCells (s : State) (seg tag off n : Nat) : List Byte :=
  match s.myRun with
  | some r => (r.unseen s.keptBytes).cells seg tag off n
  | none => []
/-- A read of lines, then its result: a bad line brings its error to the landing instead (R316, R369). -/
def State.readResult (s : State) (a : Access) (d : Dest) (lat : Nat) (mask value : VReg) : State :=
  match s.checkLines s.cur.loom s.me.launch s.myTenancy a.seg a.tag a.lines with
  | (some (code, k), s1) => s1.resultFailed d lat { code := code, operand := operandOf a.seg a.tag (64 * k) }
  | (none, s1) => s1.result d lat mask value
/-- All bits of a register. -/
def everyBit : VReg := BitVec.allOnes 1024
/-- The low n bytes of a register. -/
def lowBytes (n : Nat) : VReg := BitVec.ofNat 1024 (2 ^ (8 * n) - 1)
/-- n bytes of a register's value, least significant first. -/
def vecBytes (x : VReg) (n : Nat) : List Byte := leBytes n x.toNat

/-! ## Scalar and vector loads and stores (R194, R195, R197, R202) -/

/-- A load of size bytes at an offset under a tag, `conv` giving the register's value. -/
def State.load (s : State) (seg tag off size : Nat) (d : Dest) (lat : Nat) (mask : VReg) (conv : Nat → VReg) : State :=
  let a : Access := { seg := seg, tag := tag, offs := [off], size := size, align := size, write := false }
  s.checked a (fun s => s.readResult a d lat mask (conv (leNat (s.readCells seg tag off size))))
/-- A store of bytes at an offset under the context tag. -/
def State.store (s : State) (seg off : Nat) (bs : List Byte) (align : Nat) : State :=
  let a : Access := { seg := seg, tag := s.rTag, offs := [off], size := bs.length, align := align, write := true }
  s.checked a (fun s => s.bufferWrite (.segment seg s.rTag off bs))
/-- Sign extension of size bytes to 64 bits. -/
def extendSigned (size x : Nat) : VReg :=
  (BitVec.ofInt 64 (if x < 2 ^ (8 * size - 1) then (x : Int) else (x : Int) - 2 ^ (8 * size))).zeroExtend 1024
/-- Zero extension. -/
def extendZero (x : Nat) : VReg := BitVec.ofNat 1024 x
/-- A scalar load. -/
def State.loadScalar (s : State) (o : MemSeg) (size : Nat) (signed : Bool) : State :=
  s.load o.seg.toNat s.rTag (s.segOffset o.o o.imm6 size) size (.s o.e.toNat) 12 everyBit
    (if signed then extendSigned size else extendZero)
/-- A scalar store. -/
def State.storeScalar (s : State) (o : MemSeg) (size : Nat) : State :=
  s.store o.seg.toNat (s.segOffset o.o o.imm6 size) (leBytes size (s.rS (o.e.extractLsb' 0 6)).toNat) size
/-- A vector load of size bytes. -/
def State.loadVector (s : State) (o : MemSeg) (size : Nat) : State :=
  s.load o.seg.toNat s.rTag (s.segOffset o.o o.imm6 size) size (.v o.e.toNat) 12 (lowBytes size) extendZero
/-- A vector store of size bytes. -/
def State.storeVector (s : State) (o : MemSeg) (size : Nat) : State :=
  s.store o.seg.toNat (s.segOffset o.o o.imm6 size) (vecBytes (s.rV o.e.toNat) size) size

/-- LB. -/
def execLb (o : MemSeg) (s : State) : Host.Outcome State Fault Refusal := .next (s.loadScalar o 1 true)
/-- LBU. -/
def execLbu (o : MemSeg) (s : State) : Host.Outcome State Fault Refusal := .next (s.loadScalar o 1 false)
/-- LH. -/
def execLh (o : MemSeg) (s : State) : Host.Outcome State Fault Refusal := .next (s.loadScalar o 2 true)
/-- LHU. -/
def execLhu (o : MemSeg) (s : State) : Host.Outcome State Fault Refusal := .next (s.loadScalar o 2 false)
/-- LW. -/
def execLw (o : MemSeg) (s : State) : Host.Outcome State Fault Refusal := .next (s.loadScalar o 4 true)
/-- LWU. -/
def execLwu (o : MemSeg) (s : State) : Host.Outcome State Fault Refusal := .next (s.loadScalar o 4 false)
/-- LD. -/
def execLd (o : MemSeg) (s : State) : Host.Outcome State Fault Refusal := .next (s.loadScalar o 8 false)
/-- SB. -/
def execSb (o : MemSeg) (s : State) : Host.Outcome State Fault Refusal := .next (s.storeScalar o 1)
/-- SH. -/
def execSh (o : MemSeg) (s : State) : Host.Outcome State Fault Refusal := .next (s.storeScalar o 2)
/-- SW. -/
def execSw (o : MemSeg) (s : State) : Host.Outcome State Fault Refusal := .next (s.storeScalar o 4)
/-- SD. -/
def execSd (o : MemSeg) (s : State) : Host.Outcome State Fault Refusal := .next (s.storeScalar o 8)
/-- LV.W256. -/
def execLvW256 (o : MemSeg) (s : State) : Host.Outcome State Fault Refusal := .next (s.loadVector o 32)
/-- LV.W512. -/
def execLvW512 (o : MemSeg) (s : State) : Host.Outcome State Fault Refusal := .next (s.loadVector o 64)
/-- LV.W1024. -/
def execLvW1024 (o : MemSeg) (s : State) : Host.Outcome State Fault Refusal := .next (s.loadVector o 128)
/-- SV.W256. -/
def execSvW256 (o : MemSeg) (s : State) : Host.Outcome State Fault Refusal := .next (s.storeVector o 32)
/-- SV.W512. -/
def execSvW512 (o : MemSeg) (s : State) : Host.Outcome State Fault Refusal := .next (s.storeVector o 64)
/-- SV.W1024. -/
def execSvW1024 (o : MemSeg) (s : State) : Host.Outcome State Fault Refusal := .next (s.storeVector o 128)

/-- Bits 11:0 of the tag register of a cross-tag load (R70). -/
def State.crossTag (s : State) (o : MemCross) : Nat := ((s.rS o.tagReg).extractLsb' 0 12).toNat
/-- LDX. -/
def execLdx (o : MemCross) (s : State) : Host.Outcome State Fault Refusal :=
  .next (s.load o.seg.toNat (s.crossTag o) (s.segOffset o.o 0#6 8) 8 (.s o.e.toNat) 14 everyBit extendZero)
/-- LVX. -/
def execLvx (o : MemCross) (s : State) : Host.Outcome State Fault Refusal :=
  .next (s.load o.seg.toNat (s.crossTag o) (s.segOffset o.o 0#6 128) 128 (.v o.e.toNat) 14 everyBit extendZero)
/-- LACQ: an acquire at its scope; every later access of the sequencer performs after it, as each access of this model
does when its pick issues. -/
def execLacq (o : MemAcq) (s : State) : Host.Outcome State Fault Refusal :=
  .next (s.load o.seg.toNat s.rTag (s.segOffset o.o 0#6 8) 8 (.s o.e.toNat) 12 everyBit extendZero)
/-- SREL: a release at its scope; every earlier access performs first. -/
def execSrel (o : MemAcq) (s : State) : Host.Outcome State Fault Refusal :=
  let off := s.segOffset o.o 0#6 8
  let a : Access := { seg := o.seg.toNat, tag := s.rTag, offs := [off], size := 8, align := 8, write := true }
  .next (s.checked a (fun s => (s.bufferWrite (.release o.scope.toNat)).bufferWrite
    (.segment o.seg.toNat s.rTag off (leBytes 8 (s.rS (o.e.extractLsb' 0 6)).toNat))))
/-- FENCE: a release or full fence makes every earlier access perform at its scope, and an acquire fence every earlier read:
of these the vldr in the queues of shared banks wait (R83, R200). Mask 0 orders nothing (R352). -/
def execFence (o : FenceOps) (s : State) : Host.Outcome State Fault Refusal :=
  .next (if o.mask = 0#16 then s
    else if o.kind = 1#2 then s.bufferWrite (.release 0)
    else s.bufferWrite (.release o.scope.toNat))

/-! ## Gather and scatter (R196) -/

/-- Word i of a register. -/
def wordOfV (x : VReg) (i : Nat) : Word := x.extractLsb' (32 * i) 32
/-- Elements whose offset word has bit 31 clear, each with its segment offset. -/
def elementOffsets (offsets : VReg) (base : Nat) : List (Nat × Nat) :=
  ((List.range 32).filter (fun i => !(wordOfV offsets i).getLsbD 31)).map
    (fun i => (i, base + ((wordOfV offsets i).extractLsb' 0 31).toNat))
/-- A gather or scatter as an access. -/
def gatherAccess (seg tag : Nat) (es : List (Nat × Nat)) (write : Bool) : Access :=
  { seg := seg, tag := tag, offs := es.map (·.2), size := 4, align := 4, write := write }
/-- The check of an lvg or svg. Where bit 31 is set in every offset word it touches nothing, yet its segment is checked, at offset 0:
R350 checks the slot against its segment, and applies the checks to each element that is not skipped (DEDUCED, log 87). -/
def State.checkedElements (s : State) (a : Access) (f : State → State) : State := s.checked a f
/-- LVG. -/
def execLvg (o : MemSeg) (s : State) : Host.Outcome State Fault Refusal :=
  let es := elementOffsets (s.rV o.e.toNat) (s.segOffset o.o o.imm6 4)
  let a := gatherAccess o.seg.toNat s.rTag es false
  let value := es.foldl (fun n e => n + leNat (s.readCells o.seg.toNat s.rTag e.2 4) * 2 ^ (32 * e.1)) 0
  .next (s.checkedElements a (fun s => s.readResult a (.v o.e.toNat) 12 everyBit (extendZero value)))
/-- SVG: in ascending element. -/
def execSvg (o : MemSeg) (s : State) : Host.Outcome State Fault Refusal :=
  let es := elementOffsets (s.rV (o.e.toNat + 1)) (s.segOffset o.o o.imm6 4)
  let a := gatherAccess o.seg.toNat s.rTag es true
  let data := s.rV o.e.toNat
  .next (s.checkedElements a (fun s => es.foldl (fun s e =>
    s.bufferWrite (.segment o.seg.toNat s.rTag e.2 (leBytes 4 (wordOfV data e.1).toNat))) s))

/-! ## Atomics (R198, R199) -/

/-- The new value of an atomic, none where it writes nothing (Table 11.2). -/
def atomicNew (m : Mnemonic) (size old x y : Nat) : Option Nat :=
  let sg := fun (v : Nat) => if v < 2 ^ (8 * size - 1) then (v : Int) else (v : Int) - 2 ^ (8 * size)
  match m with
  | .aadd | .aadd64 => some ((old + x) % 2 ^ (8 * size))
  | .afadd => some (((binary32.decode old).add (binary32.decode x) 0#2).round binary32 0#2).code
  | .amin => some (if sg x < sg old then x else old)
  | .amax => some (if sg old < sg x then x else old)
  | .aminu => some (min old x)
  | .amaxu => some (max old x)
  | .aand => some (old &&& x)
  | .aor => some (old ||| x)
  | .axor => some (old ^^^ x)
  | .axch | .axch64 => some x
  | .acas | .acas64 => if old = x then some y else none
  | _ => none
/-- The value that stands where an atomic acts: the writes of the pick so far have performed for it (R192). -/
def State.atomicOld (s : State) (seg off size : Nat) : Nat :=
  match s.atomicRun with
  | some r => leNat (r.cells seg s.rTag off size)
  | none => 0
/-- What an atomic writes. A compare that fails is a read alone (R198, R261), but for the overlay that every atomic under a tag
materialises (R63, R199), which takes the value as it was. -/
def State.atomicWrite (s : State) (m : Mnemonic) (o : MemSeg) (size : Nat) : Option Nat :=
  let e := o.e.extractLsb' 0 6
  let old := s.atomicOld o.seg.toNat (s.segOffset o.o o.imm6 size) size
  match atomicNew m size old ((s.rS e).toNat % 2 ^ (8 * size)) ((s.rS (e + 1#6)).toNat % 2 ^ (8 * size)) with
  | some v => some v
  | none => if s.myRun.any (fun r => (Tab.find? r.segs o.seg.toNat).any (fun g => g.tagOf s.rTag ≠ 0)) then some old else none
/-- An atomic: one indivisible read and write among the pick's writes; the old value returns at n + 16. -/
def State.atomic (s : State) (m : Mnemonic) (o : MemSeg) (size : Nat) (signed : Bool) : State :=
  let off := s.segOffset o.o o.imm6 size
  let a : Access := { seg := o.seg.toNat, tag := s.rTag, offs := [off], size := size, align := size, write := true }
  s.checked a (fun s =>
    let old := s.atomicOld o.seg.toNat off size
    let s1 := match s.atomicWrite m o size with
      | some v => s.bufferWrite (.segment o.seg.toNat s.rTag off (leBytes size v))
      | none => s
    s1.readResult { a with write := false } (.s o.e.toNat) 16 everyBit
      (if signed then extendSigned size old else extendZero old))
/-- AADD. -/
def execAadd (o : MemSeg) (s : State) : Host.Outcome State Fault Refusal := .next (s.atomic .aadd o 4 true)
/-- AFADD. -/
def execAfadd (o : MemSeg) (s : State) : Host.Outcome State Fault Refusal := .next (s.atomic .afadd o 4 true)
/-- AMIN. -/
def execAmin (o : MemSeg) (s : State) : Host.Outcome State Fault Refusal := .next (s.atomic .amin o 4 true)
/-- AMAX. -/
def execAmax (o : MemSeg) (s : State) : Host.Outcome State Fault Refusal := .next (s.atomic .amax o 4 true)
/-- AMINU. -/
def execAminu (o : MemSeg) (s : State) : Host.Outcome State Fault Refusal := .next (s.atomic .aminu o 4 false)
/-- AMAXU. -/
def execAmaxu (o : MemSeg) (s : State) : Host.Outcome State Fault Refusal := .next (s.atomic .amaxu o 4 false)
/-- AAND. -/
def execAand (o : MemSeg) (s : State) : Host.Outcome State Fault Refusal := .next (s.atomic .aand o 4 true)
/-- AOR. -/
def execAor (o : MemSeg) (s : State) : Host.Outcome State Fault Refusal := .next (s.atomic .aor o 4 true)
/-- AXOR. -/
def execAxor (o : MemSeg) (s : State) : Host.Outcome State Fault Refusal := .next (s.atomic .axor o 4 true)
/-- AXCH. -/
def execAxch (o : MemSeg) (s : State) : Host.Outcome State Fault Refusal := .next (s.atomic .axch o 4 true)
/-- ACAS. -/
def execAcas (o : MemSeg) (s : State) : Host.Outcome State Fault Refusal := .next (s.atomic .acas o 4 true)
/-- AADD64. -/
def execAadd64 (o : MemSeg) (s : State) : Host.Outcome State Fault Refusal := .next (s.atomic .aadd64 o 8 false)
/-- AXCH64. -/
def execAxch64 (o : MemSeg) (s : State) : Host.Outcome State Fault Refusal := .next (s.atomic .axch64 o 8 false)
/-- ACAS64. -/
def execAcas64 (o : MemSeg) (s : State) : Host.Outcome State Fault Refusal := .next (s.atomic .acas64 o 8 false)

end Sys2Proof.Machine
end

