-- ==== Sys2Proof/Machine/Spindle.lean ====
section
/-!
DEFINITION. The Spindle: what a request needs (R52, R53), grants (R56, R57), the clock search for victims (R50, R72), and
its pushes, recalls, compaction moves, allocations and overlay copies (R45, R49, R51, R63, R305, R380).
-/

namespace Sys2Proof.Machine

/-! ## Needs -/

/-- Does a segment or overlay stand in the scratchpad, resident or moving? -/
def Residency.holds (r : Residency) : Bool :=
  match r with
  | .unborn | .pushed => false
  | _ => true
/-- What an access needs before it may perform. One whose every element is skipped needs its segment all the same where it is untagged or
read under tag 0, and has no line to need under another (R191 does not say; DESIGN CHOICE, log 70). -/
def LoomRun.needsOf (r : LoomRun) (a : Access) : List Need :=
  match Tab.find? r.segs a.seg with
  | none => []
  | some g =>
    if g.tagOf a.tag = 0 then [.segment a.seg a.write]
    else
      (a.lines.flatMap (fun k =>
        match r.shown a.seg a.tag k with
        | some _ => [Need.overlay a.seg a.tag k false]
        | none => if a.write then [.segment a.seg false, .overlay a.seg a.tag k true] else [.segment a.seg false])).eraseDups
/-- Is a need met? -/
def LoomRun.needMet (r : LoomRun) (n : Need) : Bool :=
  match n with
  | .segment seg write =>
    match Tab.find? r.segs seg with
    | none => true
    | some g => g.state == .resident || (g.state == .unborn && !write)
  | .overlay seg tag line create =>
    match r.overlay seg tag line with
    | some o => o.state == .resident
    | none => !create
/-- Granules that a need still asks for: nothing for what is resident or moving. -/
def LoomRun.needSize (r : LoomRun) (n : Need) : Nat :=
  match n with
  | .segment seg write =>
    match Tab.find? r.segs seg with
    | none => 0
    | some g => if g.state.holds || (g.state == .unborn && !write) then 0 else g.size / 64
  | .overlay seg tag line create =>
    match r.overlay seg tag line with
    | some o => if o.state.holds then 0 else 1
    | none => if create then 1 else 0
/-- The segment of a need. -/
def Need.seg (n : Need) : Nat :=
  match n with
  | .segment seg _ => seg
  | .overlay seg _ _ _ => seg
/-- The row of Table 2.3 that holds a pick back for want of a need. -/
def LoomRun.needCause (r : LoomRun) (n : Need) : Nat :=
  match n with
  | .segment seg _ =>
    match Tab.find? r.segs seg with
    | some g => if g.state == .unborn || g.state == .allocating then 12 else 9
    | none => 9
  | .overlay seg tag line _ =>
    match r.overlay seg tag line with
    | some o => if o.state == .allocating then 13 else 9
    | none => 13

/-! ## Space (R46, R49) -/

/-- Granules that a launch holds on a loom. -/
def LoomRun.held (r : LoomRun) : Nat :=
  r.segs.foldl (fun n p => if p.2.state.holds then n + p.2.size / 64 else n) 0 +
  (r.overlays.filter (fun o => o.state.holds)).length
/-- The runs of granules in use on a loom: start and length. -/
def Loom.usedRuns (l : Loom) : List (Nat × Nat) :=
  l.runs.flatMap (fun p =>
    (p.2.segs.filter (fun g => g.2.state.holds)).map (fun g => (g.2.home, g.2.size / 64)) ++
    (p.2.overlays.filter (fun o => o.state.holds)).map (fun o => (o.home, 1)))
/-- Is a run free? -/
def runFree (used : List (Nat × Nat)) (start len : Nat) : Bool :=
  start + len ≤ 65536 && used.all (fun u => u.1 + u.2 ≤ start || start + len ≤ u.1)
/-- The lowest free run of a length. -/
def firstFit (used : List (Nat × Nat)) (len : Nat) : Option Nat :=
  ((0 :: used.map (fun u => u.1 + u.2)).filter (fun g => runFree used g len)).foldl
    (fun m g => some (match m with
      | some x => min x g
      | none => g)) none
/-- Free granules of a loom. -/
def Loom.freeGranules (l : Loom) : Nat := 65536 - l.usedRuns.foldl (fun n u => n + u.2) 0

/-! ## Victims (R50, R72, R380) -/

/-- A candidate of the clock search. -/
inductive Item where
  | base (seg : Nat)
  | over (seg tag line : Nat)
deriving DecidableEq, Repr

/-- Every position in the order of the search from segment 0: a base, then its overlays. -/
def LoomRun.items (r : LoomRun) : List Item :=
  r.segs.flatMap (fun p => Item.base p.1 ::
    (r.overlays.filter (fun o => o.seg = p.1)).map (fun o => .over o.seg o.tag o.line))
/-- Does a position stand at or after the clock hand? -/
def LoomRun.atHand (r : LoomRun) (i : Item) : Bool :=
  match i, r.handOverlay with
  | .base seg, none => r.handSeg ≤ seg
  | .base seg, some _ => r.handSeg < seg
  | .over seg _ _, none => r.handSeg ≤ seg
  | .over seg tag line, some h => r.handSeg < seg || (r.handSeg = seg && (h.1 < tag || (h.1 = tag && h.2 ≤ line)))
/-- One full sweep, from the hand on. -/
def LoomRun.sweep (r : LoomRun) : List Item := r.items.filter r.atHand ++ r.items.filter (fun i => !r.atHand i)
/-- Spill slots that a launch has for overlays, and the lowest free one (R71). -/
def LoomRun.overlaySlots (r : LoomRun) : Nat := (r.spillShare + r.windowBytes - r.slotStart 4096) / 64
def LoomRun.freeSlot (r : LoomRun) : Option Nat :=
  (List.range r.overlaySlots).find? (fun k => r.overlays.all (fun o => o.slot ≠ some k))
/-- May an item be chosen: resident, unpinned, of no segment that the served request names; an overlay needs a spill slot. -/
def LoomRun.eligible (r : LoomRun) (served : List Need) (i : Item) : Bool :=
  match i with
  | .base seg =>
    match Tab.find? r.segs seg with
    | some g => g.state == .resident && g.pins == 0 && !served.any (fun n => n.seg == seg)
    | none => false
  | .over seg tag line =>
    match r.overlay seg tag line with
    | some o => o.state == .resident && o.pins == 0 && !served.any (fun n => n.seg == seg) &&
        (o.slot.isSome || r.freeSlot.isSome)
    | none => false
/-- Its referenced bit. -/
def LoomRun.referenced (r : LoomRun) (i : Item) : Bool :=
  match i with
  | .base seg => ((Tab.find? r.segs seg).map (·.ref)).getD false
  | .over seg tag line => ((r.overlay seg tag line).map (·.ref)).getD false
/-- Clear its referenced bit. -/
def LoomRun.clearRef (r : LoomRun) (i : Item) : LoomRun :=
  match i with
  | .base seg =>
    match Tab.find? r.segs seg with
    | some g => { r with segs := Tab.put r.segs seg { g with ref := false } }
    | none => r
  | .over seg tag line =>
    match r.overlay seg tag line with
    | some o => { r with overlays := putOverlay r.overlays { o with ref := false } }
    | none => r
/-- The hand just past an item: after a base, the next segment number; after an overlay, the next overlay of the segment,
else the next segment. -/
def LoomRun.handPast (r : LoomRun) (i : Item) : LoomRun :=
  match i with
  | .base seg => { r with handSeg := (seg + 1) % 4096, handOverlay := none }
  | .over seg tag line =>
    match r.overlays.find? (fun o => o.seg = seg && (tag < o.tag || (o.tag = tag && line < o.line))) with
    | some o => { r with handSeg := seg, handOverlay := some (o.tag, o.line) }
    | none => { r with handSeg := (seg + 1) % 4096, handOverlay := none }
/-- The search over a list of positions. -/
def LoomRun.search (r : LoomRun) (served : List Need) (l : List Item) : Option Item × LoomRun :=
  match l with
  | [] => (none, r)
  | i :: rest =>
    if r.eligible served i then
      if r.referenced i then LoomRun.search (r.clearRef i) served rest
      else (some i, r.handPast i)
    else LoomRun.search r served rest
/-- The victim of a launch: two full sweeps at most. -/
def LoomRun.victim (r : LoomRun) (served : List Need) : Option Item × LoomRun := r.search served (r.sweep ++ r.sweep)

/-! ## Transfers (R49, R51, R52, R305) -/

/-- Change the state, and perhaps the home, of a segment. -/
def LoomRun.moveSeg (r : LoomRun) (seg : Nat) (st : Residency) (home : Option Nat) : LoomRun :=
  match Tab.find? r.segs seg with
  | some g => { r with segs := Tab.put r.segs seg { g with state := st, home := home.getD g.home } }
  | none => r
/-- Change the state, and perhaps the home, of an overlay. -/
def LoomRun.moveOver (r : LoomRun) (seg tag line : Nat) (st : Residency) (home : Option Nat) : LoomRun :=
  match r.overlay seg tag line with
  | some o => { r with overlays := putOverlay r.overlays { o with state := st, home := home.getD o.home } }
  | none => r
/-- The counter that a transfer counts in: C23 for a recall, else C22 (R51, R52, R72). -/
def Move.counter (m : Move) : Nat :=
  match m with
  | .recall _ | .recallOverlay _ _ _ => 23
  | _ => 22
/-- The bytes that it counts: a readonly segment is freed without a write (R51), and nothing else counts (R305). -/
def LoomRun.transferBytes (r : LoomRun) (m : Move) : Nat :=
  let size := fun (g : Segment) => g.size
  match m with
  | .push seg => (Tab.find? r.segs seg).elim 0 (fun g => if g.readonly then 0 else g.size)
  | .recall seg => (Tab.find? r.segs seg).elim 0 size
  | .pushOverlay _ _ _ => 64
  | .recallOverlay _ _ _ => 64
  | _ => 0
/-- Begin a transfer of a launch, for an agent of a tenancy. -/
def State.begin (s : State) (l id payer : Nat) (m : Move) (p : Config.Process) (f : LoomRun → LoomRun) : State :=
  let (t, s1) := s.endOf p
  s1.updLoom l (fun x => { x.updRun id f with
    transfer := some { move := m, launch := id, payer := some payer, bytes := (x.run id).elim 0 (·.transferBytes m), endsAt := t } })
/-- Push an item out; an overlay takes its slot at its first push. -/
def State.beginPush (s : State) (l id payer : Nat) (i : Item) : State :=
  match i with
  | .base seg => s.begin l id payer (.push seg) .transfer (fun r => r.moveSeg seg .pushing none)
  | .over seg tag line =>
    s.begin l id payer (.pushOverlay seg tag line) .transfer (fun r =>
      match r.overlay seg tag line with
      | some o =>
        let o1 := { o with state := .pushing, slot := if o.slot.isSome then o.slot else r.freeSlot }
        { r with overlays := putOverlay r.overlays o1 }
      | none => r)
/-- Bring a need in, at a home granule. With the overlay allowance full nothing is materialised: the agent's check faults
(R379). -/
def State.beginNeed (s : State) (l id : Nat) (r : LoomRun) (n : Need) (home : Nat) : State :=
  match n with
  | .segment seg _ =>
    if ((Tab.find? r.segs seg).map (·.state)) = some .pushed then
      s.begin l id r.tenancy (.recall seg) .transfer (fun r => r.moveSeg seg .recalling (some home))
    else s.begin l id r.tenancy (.allocate seg) .allocation (fun r => r.moveSeg seg .allocating (some home))
  | .overlay seg tag line _ =>
    if (r.overlay seg tag line).isSome then
      s.begin l id r.tenancy (.recallOverlay seg tag line) .transfer (fun r => r.moveOver seg tag line .recalling (some home))
    else if r.budget / 2 ≤ r.overlays.length then s
    else
      s.begin l id r.tenancy (.materialise seg tag line) .allocation (fun r =>
        match Tab.find? r.segs seg with
        | some g =>
          let o := { g.newOverlay seg tag line with state := .allocating, home := home, ref := false, fresh := true }
          { r with overlays := putOverlay r.overlays o }
        | none => r)
/-- What compaction may move: launch, item, home and length, in ascending home. -/
def Loom.movable (l : Loom) : List (Nat × Item × Nat × Nat) :=
  sortBy (fun (a b : Nat × Item × Nat × Nat) => a.2.2.1 ≤ b.2.2.1) (l.runs.flatMap (fun p =>
    (p.2.segs.filter (fun g => g.2.state == .resident && g.2.pins == 0)).map
      (fun g => (p.1, Item.base g.1, g.2.home, g.2.size / 64)) ++
    (p.2.overlays.filter (fun o => o.state == .resident && o.pins == 0)).map
      (fun o => (p.1, Item.over o.seg o.tag o.line, o.home, 1))))
/-- The next compaction move: the first movable run with a free place below it, which it goes to. R49 moves toward granule 0, and does
not say how far: that a run goes to the lowest free place that holds it, past others or by a slide, is DESIGN CHOICE (log 80). -/
def Loom.compaction (l : Loom) : Option (Nat × Item × Nat) :=
  l.movable.findSome? (fun m =>
    let others := l.usedRuns.erase (m.2.2.1, m.2.2.2)
    match firstFit others m.2.2.2 with
    | some g => if g < m.2.2.1 then some (m.1, m.2.1, g) else none
    | none => none)
/-- Begin a compaction move: the home is the destination run from now on (Table 3.5). -/
def State.beginCompact (s : State) (l id : Nat) (i : Item) (g : Nat) : State :=
  let t := (((s.loom l).run id).map (·.tenancy)).getD 0
  match i with
  | .base seg => s.begin l id t (.compact seg g) .transfer (fun r => r.moveSeg seg .compacting (some g))
  | .over seg tag line =>
    s.begin l id t (.compactOverlay seg tag line g) .transfer (fun r => r.moveOver seg tag line .compacting (some g))
/-- Order of requests: stamp, then loom, then agent (R56). -/
def Waiter.before (a b : Waiter) : Bool :=
  a.stamp < b.stamp || (a.stamp = b.stamp && (a.loom < b.loom || (a.loom = b.loom && a.agent < b.agent)))
/-- The oldest of a list of waiters. -/
def oldestWaiter (l : List Waiter) : Option Waiter :=
  l.foldl (fun m w => some (match m with
    | some x => if w.before x then w else x
    | none => w)) none
/-- Its needs that are not met, in ascending segment number. -/
def LoomRun.absent (r : LoomRun) (ns : List Need) : List Need :=
  sortBy (fun (a b : Need) => a.seg ≤ b.seg) (ns.filter (fun n => !r.needMet n))
/-- A launch that has been switched out gives up its space first (R46). DESIGN CHOICE (log 38): of several, the first in the
loom's table that has a victim. -/
def Loom.suspendedVictim (l : Loom) : Option (Nat × Item × LoomRun) :=
  l.runs.findSome? (fun p =>
    if p.2.suspended then
      match p.2.victim [] with
      | (some i, r) => some (p.1, i, r)
      | (none, _) => none
    else none)
/-- Is every resident item outside the served set an overlay that has no spill slot (R380)? -/
def LoomRun.onlyUnslotted (r : LoomRun) (served : List Need) : Bool :=
  r.freeSlot.isNone &&
  r.overlays.any (fun o => o.state == .resident && o.slot.isNone && !served.any (fun n => n.seg == o.seg)) &&
  r.segs.all (fun p => p.2.state != .resident || served.any (fun n => n.seg == p.1)) &&
  r.overlays.all (fun o => o.state != .resident || o.slot.isNone || served.any (fun n => n.seg == o.seg))
/-- The Spindle takes up the next action for its oldest waiter, when no transfer is in progress (R305): nothing more for a launch that
the records of this cycle end (R380). -/
def State.spindle (s : State) (l : Nat) : State :=
  let x := s.loom l
  if x.transfer.isSome || x.contained then s
  else
    match oldestWaiter (x.waiters.filter (fun w => !w.granted && !s.ends.contains w.launch)) with
    | none => s
    | some w =>
      match x.run w.launch with
      | none => s
      | some r =>
        match r.absent w.needs with
        | [] => s
        | n :: more =>
          let want := ((n :: more).map r.needSize).foldl (· + ·) 0
          if r.budget < r.held + want then
            match r.victim w.needs with
            | (some i, r1) => (s.updLoom l (fun x => x.updRun w.launch (fun _ => r1))).beginPush l w.launch r.tenancy i
            | (none, r1) =>
              let s1 := s.updLoom l (fun x => x.updRun w.launch (fun _ => r1))
              if r1.onlyUnslotted w.needs then
                (s1.recordAt l r.tenancy 13 15 3 1 0x304 0#14 0 0 (operandOf n.seg 0 0) (some w.launch)).endLaunch w.launch
              else s1
          else
            match (n :: more).find? (fun n => r.needSize n ≠ 0) with
            | none => s
            | some n =>
              match firstFit x.usedRuns (r.needSize n) with
              | some home => s.beginNeed l w.launch r n home
              | none =>
                if x.freeGranules < r.needSize n then
                  match x.suspendedVictim with
                  | some (id, i, r1) => (s.updLoom l (fun x => x.updRun id (fun _ => r1))).beginPush l id r.tenancy i
                  | none => s
                else
                  match x.compaction with
                  | some (id, i, g) => s.beginCompact l id i g
                  | none => s

/-! ## Grants (R56, R57) -/

/-- Is a request granted on a loom now: its needs met, and no older request of its launch waiting there? -/
def Loom.grants (l : Loom) (w : Waiter) : Bool :=
  match l.run w.launch with
  | none => true
  | some r =>
    w.needs.all r.needMet &&
    !l.waiters.any (fun x => x.launch = w.launch && x.before w && !x.same w && !x.granted)
/-- Put a waiter on a loom, or refresh the one that its agent already has there; the Spindle takes it up. -/
def State.wait_ (s : State) (l : Nat) (w : Waiter) : State :=
  let s1 := s.updLoom l (fun x => { x.dropWaiters (fun y => y.same w) with
    waiters := x.waiters.filter (fun y => !y.same w) ++ [w] })
  s1.spindle l
/-- Has a loom granted a request already, which waits for its other owners? -/
def Loom.hasGranted (l : Loom) (w : Waiter) : Bool := l.waiters.any (fun y => y.same w && y.granted && y.needs = w.needs)
/-- One owner's answer to a request that not every owner grants at once: it grants and pins, or has it wait (R57). -/
def State.ask (s : State) (l : Nat) (w : Waiter) : State :=
  if (s.loom l).hasGranted w then s
  else if (s.loom l).grants w then
    s.updLoom l (fun x =>
      let y := (x.dropWaiters (fun y => y.same w)).pins w.launch w.needs true
      { y with waiters := y.waiters ++ [{ w with granted := true }] })
  else s.wait_ l w
/-- A waiter whose segments are there is granted as its turn comes, the oldest first, whatever holds its agent: what it asked for is
pinned until the agent goes on with it (R56). -/
def Loom.grantReady (l : Loom) : Loom :=
  (sortBy (fun (a b : Waiter) => a.before b) (l.waiters.filter (fun w => !w.granted))).foldl (fun (l : Loom) w =>
    if l.grants w then
      let x := (l.dropWaiters (fun y => y.same w)).pins w.launch w.needs true
      { x with waiters := x.waiters ++ [{ w with granted := true }] }
    else l) l
/-- An agent's request waits no longer on a loom. -/
def State.unwait (s : State) (l loom agent stamp : Nat) : State :=
  let mine := fun (y : Waiter) => y.loom = loom && y.agent = agent && y.stamp = stamp
  if (s.loom l).waiters.any mine then s.updLoom l (fun x => x.dropWaiters mine) else s
/-- It waits no longer on any loom of its cluster. -/
def State.withdrawOf (s : State) (loom agent stamp : Nat) : State :=
  (loomsOf (clusterOf loom)).foldl (fun s o => s.unwait o loom agent stamp) s
/-- Needs by owning loom. -/
abbrev OwnedNeeds := List (Nat × List Need)
/-- Ask for needs on every loom that owns some: granted when every owner grants, or has granted. Otherwise those that grant pin
their part, and it waits on the others (R57). A request that has waited stands until it is withdrawn, when what it asks for is
pinned. -/
def State.request (s : State) (loom agent id stamp : Nat) (ns : OwnedNeeds) : Bool × State :=
  let mk := fun (n : List Need) =>
    ({ stamp := stamp, loom := loom, agent := agent, launch := id, needs := n, granted := false } : Waiter)
  let stands := fun (s : State) (p : Nat × List Need) => (s.loom p.1).grants (mk p.2) || (s.loom p.1).hasGranted (mk p.2)
  if ns.all (stands s) then (true, s)
  else (false, ns.foldl (fun s p => s.ask p.1 (mk p.2)) s)
/-- Pin, or unpin, the needs of a request; an unpin lets the Spindle go on. -/
def State.pinAll (s : State) (id : Nat) (ns : OwnedNeeds) (up : Bool) : State :=
  ns.foldl (fun s p =>
    let s1 := s.updLoom p.1 (fun x => x.pins id p.2 up)
    if up then s1 else s1.spindle p.1) s
/-- A pick pins its segments from the cycle of its issue until its accesses have performed, which here is the cycle's end
(R53). -/
def State.pinPick (s : State) (id : Nat) (ns : OwnedNeeds) : State :=
  let s1 := s.pinAll id ns true
  { s1 with pickPins := s1.pickPins ++ ns.map (fun p => (id, p.1, p.2)) }
/-- The pins of the picks of a cycle end with it. -/
def State.unpinPicks (s : State) : State :=
  s.pickPins.foldl (fun s p => s.updLoom p.2.1 (fun x => x.pins p.1 p.2.2 false)) { s with pickPins := [] }

/-! ## Spill slots (R47, R51, R52, R71) -/

/-- Where a line of a launch's spill space lies: a vault line of its loom, or a line at an offset of its spill window. -/
inductive SpillPlace where
  | vault (line : Nat)
  | window (off : Nat)
deriving DecidableEq, Repr
/-- Line j of the spill space: first the share of banks 28 to 31, then the loom's region of the window (R47). -/
def LoomRun.spillPlace (r : LoomRun) (j : Nat) : SpillPlace :=
  let share := r.spillShare / 64
  if j < share then .vault (28 * 32768 + r.spillBase / 64 + j) else .window (r.rank * r.windowBytes + 64 * (j - share))
/-- The first line of a segment's slot, and of an overlay's, after the segments (R47, R71). -/
def LoomRun.segSlot (r : LoomRun) (seg : Nat) : Nat := r.slotStart seg / 64
def LoomRun.overSlot (r : LoomRun) (slot : Nat) : Nat := r.slotStart 4096 / 64 + slot
/-- The offset in the spill window of line j, where its target is out of reach (R377, R403). -/
def State.spillLost (s : State) (r : LoomRun) (j : Nat) : Option Nat :=
  match r.spillPlace j with
  | .vault _ => none
  | .window off =>
    let e := s.window r.tenancy r.spillWindow
    if s.unreachable (winKind e) (winTarget e off) then some off else none
/-- Write one line of a launch's spill space, with its poison; a line of the window is encrypted under the key of its entry, and one
whose target is out of reach is lost. -/
def State.putSpill (s : State) (l : Nat) (r : LoomRun) (j : Nat) (bs : List Byte) (poisoned : Bool) : State :=
  match r.spillPlace j with
  | .vault k =>
    s.updLoom l (fun x => { x with
      vault := if x.vault.readBytes (64 * k) 64 = bs then x.vault else x.vault.writeBytes (64 * k) bs
      vaultPoison := (if poisoned then [k] else []) ++ x.vaultPoison.filter (· ≠ k) })
  | .window off =>
    let e := s.window r.tenancy r.spillWindow
    if (s.spillLost r j).isSome then s
    else s.farStore (winKind e) (winPeer e) (s.keyOf e) (winTarget e off) bs poisoned
/-- Read one line of it: its bytes, the code of what the check finds there, and whether it is poisoned. A line whose target is out of
reach comes back poisoned, with 0x407: a recall never fails (R371; DESIGN CHOICE, log 61). -/
def State.getSpill (s : State) (l : Nat) (r : LoomRun) (j : Nat) : List Byte × Option Nat × Bool × State :=
  match r.spillPlace j with
  | .vault k =>
    let c := s.checkVault l r.tenancy [k]
    let x := c.2.loom l
    (x.vault.readBytes (64 * k) 64, (c.1.map (·.1)).filter (· ≠ 0x910), x.vaultPoison.contains k, c.2)
  | .window off =>
    let e := s.window r.tenancy r.spillWindow
    let a := winTarget e off
    if (s.spillLost r j).isSome then (leBytes 64 0, some 0x407, true, s)
    else
    let c := s.checkFar (stackOf l) (winKind e) (winPeer e) (s.keyOf e) [a / 64]
    (s.farBytes (winKind e) (winPeer e) (s.keyOf e) a 64, c.1.filter (· ≠ 0x910), c.2.farPoison (winKind e) (winPeer e) (a / 64),
     c.2)
/-- Write n lines of contents to the spill space from line j on. -/
def State.spillOut (s : State) (l : Nat) (r : LoomRun) (j n : Nat) (data : Memory) (poison : List Nat) : State :=
  (List.range n).foldl (fun s k => s.putSpill l r (j + k) (data.readBytes (64 * k) 64) (poison.contains k)) s
/-- What a recall brings back: contents, poisoned lines, and the errors found, each by line. -/
structure Recalled where
  data : Memory
  poison : List Nat
  errors : List (Nat × Nat)
  after : State
deriving DecidableEq, Repr
/-- Read n lines of the spill space from line j on. -/
def State.spillIn (s : State) (l : Nat) (r : LoomRun) (j n : Nat) : Recalled :=
  (List.range n).foldl (fun (a : Recalled) k =>
    let (bs, code, bad, s1) := a.after.getSpill l r (j + k)
    { data := a.data.writeBytes (64 * k) bs, poison := if bad then a.poison ++ [k] else a.poison
      errors := a.errors ++ (code.toList.map (fun c => (c, k))), after := s1 })
    { data := [], poison := [], errors := [], after := s }

/-! ## Events -/

/-- Replace a segment that is in a given state; a light switch may have returned it to unborn meanwhile (R41). -/
def LoomRun.arrive (r : LoomRun) (seg : Nat) (from_ : Residency) (f : Segment → Segment) : LoomRun :=
  match Tab.find? r.segs seg with
  | some g => if g.state = from_ then { r with segs := Tab.put r.segs seg (f g) } else r
  | none => r
/-- Replace an overlay, where it is still there. -/
def LoomRun.arriveOver (r : LoomRun) (seg tag line : Nat) (f : Overlay → Overlay) : LoomRun :=
  match r.overlay seg tag line with
  | some o => { r with overlays := putOverlay r.overlays (f o) }
  | none => r
/-- What a transfer leaves in the launch's tables when it ends; a recall brings contents and poisoned lines. -/
def LoomRun.transferDone (r : LoomRun) (m : Move) (data : Memory) (poison : List Nat) : LoomRun :=
  match m with
  | .push seg => r.arrive seg .pushing (fun g => { g with state := .pushed, home := 0, data := [], poison := [] })
  | .recall seg => r.arrive seg .recalling (fun g => { g with state := .resident, ref := false, data := data, poison := poison })
  | .compact seg _ => r.arrive seg .compacting (fun g => { g with state := .resident })
  | .allocate seg => r.arrive seg .allocating (fun g => { g with state := .resident, data := [], poison := [] })
  | .pushOverlay seg tag line => r.arriveOver seg tag line (fun o => { o with state := .pushed, home := 0, data := [], poisoned := false })
  | .recallOverlay seg tag line =>
    r.arriveOver seg tag line (fun o => { o with state := .resident, ref := false, data := data, poisoned := poison ≠ [] })
  | .compactOverlay seg tag line _ => r.arriveOver seg tag line (fun o => { o with state := .resident })
  | .materialise seg tag line => r.arriveOver seg tag line (fun o => { o with state := .resident })
/-- Lines of the scratchpad that a transfer reads: the tag of the instance, and the lines with an error to be found. -/
def Loom.movedErrors (l : Loom) (id : Nat) (m : Move) : List (Nat × Nat × Nat) :=
  let writes := fun (x : Nat) => !((((l.run id).bind (fun r => Tab.find? r.segs x)).map (·.readonly)).getD false)
  let at_ := fun (e : EccPlace × EccKind) =>
    match e.1, m with
    | .segment i seg line, .push x => if i = id && seg = x && writes x then some (seg, 0, line) else none
    | .segment i seg line, .compact x _ => if i = id && seg = x then some (seg, 0, line) else none
    | .segment i seg line, .materialise x _ k => if i = id && seg = x && line = k then some (seg, 0, line) else none
    | .overlay i seg tag line, .pushOverlay x t k =>
      if i = id && seg = x && tag = t && line = k then some (seg, tag, line) else none
    | .overlay i seg tag line, .compactOverlay x t k _ =>
      if i = id && seg = x && tag = t && line = k then some (seg, tag, line) else none
    | _, _ => none
  l.ecc.filterMap at_
/-- The Spindle reads lines that it moves: an error that it finds poisons the line and is reported (R371). -/
def State.spindleReads (s : State) (l id t : Nat) (errs : List (Nat × Nat × Nat)) : State :=
  errs.foldl (fun s e =>
    match s.checkLine l id t e.1 e.2.1 e.2.2 with
    | (some code, s1) =>
      if code = 0x910 then s1 else s1.report l t 13 15 code 0 0 (operandOf e.1 e.2.1 (64 * e.2.2)) (some id)
    | (none, s1) => s1) s
/-- The errors that a recall finds in its slot are reported; it completes all the same (R371). -/
def State.reportRecalled (s : State) (l id t seg tag line0 : Nat) (errs : List (Nat × Nat)) : State :=
  errs.foldl (fun s e => s.report l t 13 15 e.1 0 0 (operandOf seg tag (64 * (line0 + e.2))) (some id)) s
/-- The lines of a push whose target is out of reach are lost, and reported with the Spindle as the agent (R377, R403). -/
def State.reportLost (s : State) (l id : Nat) (r : LoomRun) (j n : Nat) : State :=
  ((List.range n).filterMap (fun k => s.spillLost r (j + k))).foldl (fun s off =>
    s.report l r.tenancy 13 15 0x407 0 0 (operandOf r.spillWindow 0 off) (some id)) s
/-- The bytes that a transfer moves to or from a spill slot. -/
def State.moveSpill (s : State) (l : Nat) (id : Nat) (r : LoomRun) (m : Move) : State × Memory × List Nat :=
  match m with
  | .push seg =>
    match Tab.find? r.segs seg with
    | some g =>
      if g.readonly || g.state ≠ .pushing then (s, [], [])
      else
        ((s.spillOut l r (r.segSlot seg) (g.size / 64) g.data g.poison).reportLost l id r (r.segSlot seg) (g.size / 64), [], [])
    | none => (s, [], [])
  | .recall seg =>
    match Tab.find? r.segs seg with
    | some g =>
      let x := s.spillIn l r (r.segSlot seg) (g.size / 64)
      (x.after.reportRecalled l id r.tenancy seg 0 0 x.errors, x.data, x.poison)
    | none => (s, [], [])
  | .pushOverlay seg tag line =>
    match r.overlay seg tag line with
    | some o =>
      ((s.spillOut l r (r.overSlot (o.slot.getD 0)) 1 o.data (if o.poisoned then [0] else [])).reportLost l id r
        (r.overSlot (o.slot.getD 0)) 1, [], [])
    | none => (s, [], [])
  | .recallOverlay seg tag line =>
    match r.overlay seg tag line with
    | some o =>
      let x := s.spillIn l r (r.overSlot (o.slot.getD 0)) 1
      (x.after.reportRecalled l id r.tenancy seg tag line x.errors, x.data, x.poison)
    | none => (s, [], [])
  | _ => (s, [], [])
/-- Has a launch been ended by its function's reset, so that nothing of it is kept or counted any more (R396)? -/
def State.wasReset (s : State) (id : Nat) : Bool := (Tab.find? s.launches id).any (fun x => x.phase = .ended)
/-- The transfer in progress on a loom ends and is counted, and the Spindle goes on. The result of one for a launch that has been reset
is discarded (R396). -/
def State.endTransfer (s : State) (l : Nat) (t : Transfer) : State :=
  let s0 := s.updLoom l (fun x => { x with transfer := none })
  let s1 := match t.payer with
    | some n => s0.count l n t.move.counter t.bytes
    | none => s0
  match (s1.loom l).run t.launch with
  | none => s1.spindle l
  | some r0 =>
    if s.wasReset t.launch then s1.spindle l
    else
    let s2 := s1.spindleReads l t.launch r0.tenancy ((s1.loom l).movedErrors t.launch t.move)
    let r := ((s2.loom l).run t.launch).getD r0
    let (s3, data, poison) := s2.moveSpill l t.launch r t.move
    (s3.updLoom l (fun x => x.updRun t.launch (fun r => r.transferDone t.move data poison))).spindle l
/-- Kinds of transfer, by the event that ends them. -/
def Move.isAllocation (m : Move) : Bool :=
  match m with
  | .allocate _ => true
  | _ => false
def Move.isMaterialise (m : Move) : Bool :=
  match m with
  | .materialise _ _ _ => true
  | _ => false
/-- SPINDLE_TRANSFER_COMPLETE: a push, a recall or a compaction move ends. -/
def execSpindleTransferComplete (loom : Nat) (s : State) : Host.Outcome State Fault Refusal :=
  if 1280 ≤ loom then .fault .noSuchAgent
  else .next (match (s.loom loom).transfer with
    | some t => if t.move.isAllocation || t.move.isMaterialise then s else s.endTransfer loom t
    | none => s)
/-- ALLOCATION_COMPLETE: a segment's run is zero and resident (R45). -/
def execAllocationComplete (loom : Nat) (s : State) : Host.Outcome State Fault Refusal :=
  if 1280 ≤ loom then .fault .noSuchAgent
  else .next (match (s.loom loom).transfer with
    | some t => if t.move.isAllocation then s.endTransfer loom t else s
    | none => s)
/-- OVERLAY_MATERIALISE: an overlay holds its copy of the base line (R63). -/
def execOverlayMaterialise (loom : Nat) (s : State) : Host.Outcome State Fault Refusal :=
  if 1280 ≤ loom then .fault .noSuchAgent
  else .next (match (s.loom loom).transfer with
    | some t => if t.move.isMaterialise then s.endTransfer loom t else s
    | none => s)

end Sys2Proof.Machine
end

