-- ==== Sys2Proof/Machine/Barrier.lean ====
section
/-!
DEFINITION. Barrier objects and the barrier unit: binit, bbind, btx, arrive, arrivew and wait, the arrival's update and the
timeout (R158, R159, R203 to R206, R385 to R389).
-/

namespace Sys2Proof.Machine

/-! ## The object (Table 11.8) -/

/-- A barrier object's fields. -/
structure BarrierObj where
  ph : BitVec 4
  er : Bool
  exp : Nat
  arr : Nat
  pb : Nat
  low : BitVec 55
deriving DecidableEq, Repr

/-- The fields of 128 bits. -/
def BarrierObj.ofBits (x : BitVec 128) : BarrierObj :=
  { ph := x.extractLsb' 124 4, er := x.getLsbD 123, exp := (x.extractLsb' 107 16).toNat,
    arr := (x.extractLsb' 91 16).toNat, pb := (x.extractLsb' 55 36).toNat, low := x.extractLsb' 0 55 }
/-- The 128 bits of the fields. -/
def BarrierObj.bits (o : BarrierObj) : BitVec 128 :=
  o.ph ++ BitVec.ofBool o.er ++ BitVec.ofNat 16 o.exp ++ BitVec.ofNat 16 o.arr ++ BitVec.ofNat 36 o.pb ++ o.low
/-- Its 16 bytes. -/
def BarrierObj.bytes (o : BarrierObj) : List Byte := leBytes 16 o.bits.toNat
/-- The completion test: the phase advances when ARR = EXP and PB = 0. -/
def BarrierObj.complete (o : BarrierObj) : BarrierObj × Bool :=
  if o.arr = o.exp && o.pb = 0 then ({ o with ph := o.ph + 1#4, arr := 0 }, true) else (o, false)
/-- An arrival of n, bounded as Table 27.2 gives; the second part says that the phase completed, the third that it overran. -/
def BarrierObj.arrive (o : BarrierObj) (n : Nat) : BarrierObj × Bool × Bool :=
  let past := decide (o.exp < o.arr + n)
  let o1 := if past then { o with er := true, arr := o.exp } else { o with arr := o.arr + n }
  (o1.complete.1, o1.complete.2, past)
/-- btx: PB grows, bounded. -/
def BarrierObj.pend (o : BarrierObj) (x : Nat) : BarrierObj × Bool :=
  if 2 ^ 36 - 1 < o.pb + x then ({ o with er := true, pb := 2 ^ 36 - 1 }, true) else ({ o with pb := o.pb + x }, false)
/-- A copyb credit of b bytes. -/
def BarrierObj.credit (o : BarrierObj) (b : Nat) : BarrierObj × Bool × Bool :=
  let under := decide (o.pb < b)
  let o1 := if under then { o with er := true, pb := 0 } else { o with pb := o.pb - b }
  (o1.complete.1, o1.complete.2, under)
/-- ER and PH. -/
def BarrierObj.seen (o : BarrierObj) : BitVec 5 := BitVec.ofBool o.er ++ o.ph
/-- The status word of Table 9.11. -/
def barrierStatus (seen : BitVec 5) (code : BitVec 4) : DWord := 0#55 ++ seen ++ code

/-- The object at a place, for a launch: its base instance (R389). None where the loom holds no part of the launch. -/
def State.barrierAt (s : State) (id : Nat) (r : BarrierRef) : Option BarrierObj :=
  ((s.loom r.loom).run id).map (fun x => BarrierObj.ofBits (BitVec.ofNat 128 (leNat (x.cells r.seg 0 r.off 16))))
/-- Store an object. -/
def State.setBarrier (s : State) (id : Nat) (r : BarrierRef) (o : BarrierObj) : State :=
  s.segWrite r.loom id r.seg 0 r.off o.bytes

/-- The barrier unit reads the line of an object for an agent: an error of it is found there (R370, R371). -/
def State.readObject (s : State) (id t : Nat) (r : BarrierRef) : Option LandingError × State :=
  let c := s.checkLine r.loom id t r.seg 0 (r.off / 64)
  (c.1.map (fun code => { code := code, operand := operandOf r.seg 0 (64 * (r.off / 64)) }), c.2)

/-! ## Waiters (R159, R385) -/

/-- Change every sequencer of a launch on a loom, switched out or not (R286). -/
def Loom.mapSeqs (l : Loom) (id : Nat) (f : Seq → Seq) : Loom :=
  let g := fun (q : Seq) => if q.launch = id && q.status ≠ .dormant then f q else q
  { l with seqs := Tab.map l.seqs g, saved := Tab.map l.saved (fun v => { v with seqs := Tab.map v.seqs g }) }
/-- What a wait brings back lands at the step after its pick. In a group that goes on it is a write of the group (R331). -/
def Seq.comesBack (q : Seq) (dest cycle : Nat) (value : VReg) (data : Returned) : Seq :=
  let l : Landing :=
    { step := q.steps, dest := .s dest, mask := BitVec.allOnes 1024, value := value, data := data,
      pick := q.waitPick, fromStep := q.steps - 1, lane := 13 }
  { q.wake cycle with
    flight := q.flight ++ [l]
    group := q.group.map (fun g => if g.dest = .s dest && !g.back then { g with value := value, back := true } else g) }
/-- The return of a wait with its status word, or with the word that it watched. -/
def Seq.returned (q : Seq) (dest cycle : Nat) (word : DWord) : Seq := q.comesBack dest cycle (word.zeroExtend 1024) .yes
/-- Does a sequencer wait on an object? -/
def Seq.waitsOn (q : Seq) (r : BarrierRef) : Bool :=
  match q.status with
  | .waiting (.barrier o _ _ true) => o = r
  | _ => false
/-- The barrier unit releases a sequencer that waits on an object, with CODE 0. One that is switched out is re-inserted at its
switch-in, and its word is formed then (R286, R385). -/
def Seq.released (q : Seq) (r : BarrierRef) (cycle : Nat) (seen : BitVec 5) (away : Bool) : Seq :=
  match q.status with
  | .waiting (.barrier o d _ true) =>
    if o = r then q.comesBack d cycle ((barrierStatus seen 0#4).zeroExtend 1024) (if away then .rejoins r else .yes) else q
  | _ => q
/-- Note what was observed of an object (Table 9.11). -/
def LoomRun.observe (x : LoomRun) (r : BarrierRef) (seen : BitVec 5) : LoomRun :=
  { x with observed := (r, seen) :: x.observed.filter (fun o => o.1 ≠ r) }
def State.observe (s : State) (l id : Nat) (r : BarrierRef) (seen : BitVec 5) : State :=
  s.updLoom l (fun x => x.updRun id (fun y => y.observe r seen))
/-- ER and PH of an object as a launch last observed them from a loom: 0 where it has observed nothing (DESIGN CHOICE, log 57). -/
def Loom.lastSeen (l : Loom) (id : Nat) (r : BarrierRef) : BitVec 5 :=
  match (l.run id).bind (fun x => x.observed.find? (fun o => o.1 = r)) with
  | some o => o.2
  | none => 0#5
/-- Has a sequencer come to its switch point? -/
def Loom.atSwitchPoint (l : Loom) (q : Nat) : Bool := l.switching.any (fun w => w.restoresAt.isNone && w.reached.contains q)
/-- A loom's waiters of an object are released. -/
def Loom.releaseWaiters (l : Loom) (id : Nat) (r : BarrierRef) (cycle : Nat) (seen : BitVec 5) : Loom :=
  let mine := fun (q : Seq) => q.launch = id && q.waitsOn r
  let any := l.seqs.any (fun p => mine p.2) || l.saved.any (fun v => v.2.seqs.any (fun p => mine p.2))
  let l1 := if any then l.updRun id (fun x => x.observe r seen) else l
  let give := fun (away : Bool) (q : Seq) => if mine q then q.released r cycle seen away else q
  { l1 with seqs := List.map (fun (p : Nat × Seq) => (p.1, give (l.atSwitchPoint p.1) p.2)) l.seqs
            saved := Tab.map l.saved (fun v => { v with seqs := Tab.map v.seqs (give true) }) }
/-- The barrier unit releases every waiter of an object: bindings on any loom of the cluster reach it. -/
def State.releaseWaiters (s : State) (id : Nat) (r : BarrierRef) (seen : BitVec 5) : State :=
  (loomsOf (clusterOf r.loom)).foldl (fun s l =>
    if ((s.loom l).run id).isSome then s.updLoom l (fun x => x.releaseWaiters id r s.cycle seen) else s) s
/-- A sequencer that is switched in: each word that waited for it is formed, PH as the object stands now (R385). -/
def Seq.rejoin (q : Seq) (now : BarrierRef → Option (BitVec 5)) : Seq :=
  q.flight.foldl (fun q l =>
    match l.data with
    | .rejoins r =>
      let value := match now r with
        | some seen => (barrierStatus seen 0#4).zeroExtend 1024
        | none => l.value
      { q with flight := q.flight.map (fun x => if x = l then { l with value := value, data := .yes } else x)
               group := q.group.map (fun g => if g.dest = l.dest && g.step = l.step then { g with value := value } else g) }
    | _ => q) q
/-- The objects of which a sequencer's words wait to be formed. -/
def Seq.rejoining (q : Seq) : List BarrierRef :=
  q.flight.filterMap (fun l => match l.data with
    | .rejoins r => some r
    | _ => none)
/-- The waiters of a loom that phases have released while they were switched out are re-inserted, and observe their objects. -/
def State.rejoinWaiters (s : State) (l : Nat) : State :=
  (s.loom l).seqs.foldl (fun s p =>
    let now := fun (r : BarrierRef) => (s.barrierAt p.2.launch r).map (·.seen)
    let s1 := p.2.rejoining.foldl (fun s r => match now r with
      | some seen => s.observe l p.2.launch r seen
      | none => s) s
    if p.2.rejoining = [] then s else s1.updSeq l p.1 (fun q => q.rejoin now)) s

/-! ## The slots of ma and mb -/

/-- The bytes of an object in the order of the pick's updates. -/
def State.objectHere (s : State) (seg off : Nat) : BarrierObj :=
  match s.atomicRun with
  | some r => BarrierObj.ofBits (BitVec.ofNat 128 (leNat (r.cells seg 0 off 16)))
  | none => BarrierObj.ofBits 0#128
/-- The access of a slot that updates an object: its base instance, whatever ct holds (R389). -/
def objectAccess (seg off : Nat) : Access :=
  { seg := seg, tag := 0, offs := [off], size := 16, align := 16, write := true }
/-- The fault of such a slot: the update acts on the base, but the checks of Table 24.6 run under the tag of R190, so that a
dead ct faults (R350). -/
def State.objectFault (s : State) (seg off : Nat) : Option (Nat × Nat × Nat) :=
  match s.myFault { objectAccess seg off with tag := s.rTag } with
  | some (0x302, outc, at_) => some (0x302, outc, at_)
  | _ => s.myFault (objectAccess seg off)
/-- Update an object after these checks; OPERAND carries the tag. -/
def State.checkedObject (s : State) (seg off : Nat) (f : State → State) : State :=
  match s.objectFault seg off with
  | some (code, outc, at_) => s.stopSlot code outc (operandOf seg s.rTag at_)
  | none => f s
/-- BINIT. -/
def execBinit (o : MemSeg) (s : State) : Host.Outcome State Fault Refusal :=
  let off := s.segOffset o.o o.imm6 16
  let x := s.rS (o.e.extractLsb' 0 6)
  let obj : BarrierObj :=
    { ph := 0#4, er := false, exp := (x.extractLsb' 0 16).toNat, arr := 0, pb := (x.extractLsb' 16 36).toNat, low := 0#55 }
  .next (s.checkedObject o.seg.toNat off (fun s =>
    if obj.exp = 0 then s.stopSlot 0x214 0 (operandOf o.seg.toNat s.rTag off)
    else s.bufferWrite (.segment o.seg.toNat 0 off obj.bytes)))
/-- BTX: an error found in the object's line stops the sequencer as an atomic's does, 16 steps on (R371). -/
def execBtx (o : MemSeg) (s : State) : Host.Outcome State Fault Refusal :=
  let off := s.segOffset o.o o.imm6 16
  let x := ((s.rS (o.e.extractLsb' 0 6)).extractLsb' 0 36).toNat
  .next (s.checkedObject o.seg.toNat off (fun s =>
    match s.readObject s.me.launch s.myTenancy { loom := s.cur.loom, seg := o.seg.toNat, off := off } with
    | (some e, s0) => s0.resultFailed (.s 0) 16 e
    | (none, s0) =>
      let r := (s.objectHere o.seg.toNat off).pend x
      let s1 := s0.bufferWrite (.segment o.seg.toNat 0 off r.1.bytes)
      if r.2 then
        s1.report s.cur.loom s.myTenancy s.cur.seq s.cur.lane.index 0x802 s.cur.pick s.cur.step
          (operandOf o.seg.toNat 0 off) (some s.me.launch)
      else s1))
/-- The fault of a bbind: the tests of Table 24.6 in its order, against the segment on the named loom. -/
def State.bindFault (s : State) (l seg off : Nat) (x : DWord) : Option Nat :=
  match (s.loom l).run s.me.launch with
  | none => some 0x212
  | some r =>
    match Tab.find? r.segs seg with
    | none => some 0x212
    | some g =>
      if off % 16 ≠ 0 then some 0x210
      else if g.size < off + 16 then some 0x211
      else if x.extractLsb' 12 52 ≠ 0#52 then some 0x214
      else if l ≠ s.cur.loom && !g.shared then some 0x215
      else none
/-- BBIND: binds a slot; it makes no access to the object. -/
def execBbind (o : MemSeg) (s : State) : Host.Outcome State Fault Refusal :=
  let off := s.segOffset o.o o.imm6 16
  let x := s.rS (o.e.extractLsb' 0 6)
  let l := 16 * clusterOf s.cur.loom + (x.extractLsb' 8 4).toNat
  .next (match s.bindFault l o.seg.toNat off x with
    | some code => s.stopSlot code 0 (operandOf o.seg.toNat s.rTag off)
    | none => s.bufferWrite (.bind (x.extractLsb' 0 8).toNat { loom := l, seg := o.seg.toNat, off := off }))

/-! ## The slots of cf (R158, R159) -/

/-- The bindings that the rest of a resumed step still reads, as they were before it (R407). -/
def State.keptBindings (s : State) : List (Nat × Option BarrierRef) :=
  match s.issue with
  | some i => i.bound
  | none => (s.me.resuming.map (·.bound)).getD []
/-- The object bound to a slot, as the current sequencer sees it: another sequencer's binding of this cycle is not yet in
force, and the step's own is in force from the next step (R407). -/
def State.binding (s : State) (slot : Nat) : Option BarrierRef :=
  match s.myRun with
  | none => none
  | some r =>
    match s.keptBindings.find? (fun x => x.1 = slot) with
    | some x => x.2
    | none =>
    match r.rebound.find? (fun x => x.1 = slot && x.2.1 ≠ s.cur.seq) with
    | some x => x.2.2
    | none => Tab.find? r.bindings slot
/-- Is the segment of an object readonly on its loom? -/
def State.objectReadonly (s : State) (r : BarrierRef) : Bool :=
  match ((s.loom r.loom).run s.me.launch).bind (fun x => Tab.find? x.segs r.seg) with
  | some g => g.readonly
  | none => false
/-- Pin, or unpin, the segment of an object (R388). -/
def State.pinObject (s : State) (id : Nat) (r : BarrierRef) (up : Bool) : State :=
  s.pinAll id [(r.loom, [Need.segment r.seg true])] up
/-- Send an arrival towards the bank ALU, its object pinned until the update performs (R388); one bound to a contained loom
is discarded (Table 22.5), and an arrivew then reports ER and PH as last observed (log 57). -/
def State.arriveOn (s : State) (slot n : Nat) (waits : Option Nat) : State :=
  if n = 0 then s.stopSlot 0x208 1 0#64
  else
    match s.binding slot with
    | none => s.stopSlot 0x209 1 0#64
    | some r =>
      if s.objectReadonly r then s.stopSlot 0x213 0 (operandOf r.seg 0 r.off)
      else
        match s.barrierAt s.me.launch r with
        | none =>
          match waits with
          | some d => s.resultS d 1 (barrierStatus ((s.loom s.cur.loom).lastSeen s.me.launch r) 2#4)
          | none => s
        | some _ =>
          let a : Arrival :=
            { object := r, n := n, loom := s.cur.loom, seq := s.cur.seq, tenancy := s.myTenancy,
              launch := s.me.launch, pick := s.cur.pick, step := s.cur.step, waits := waits }
          let s1 := (s.updLoom s.cur.loom (fun l => { l with arriving := l.arriving ++ [a] })).pinObject s.me.launch r true
          match waits with
          | some d => s1.thenWait (.barrier r d none false)
          | none => s1
/-- ARRIVE. -/
def execArrive (bar : BitVec 8) (n : BitVec 4) (s : State) : Host.Outcome State Fault Refusal :=
  .next (s.arriveOn bar.toNat n.toNat none)
/-- ARRIVE with a register count. -/
def execArriveReg (bar : BitVec 8) (a : BitVec 6) (s : State) : Host.Outcome State Fault Refusal :=
  .next (s.arriveOn bar.toNat ((s.rS a).extractLsb' 0 16).toNat none)
/-- ARRIVEW. -/
def execArrivew (bar : BitVec 8) (n : BitVec 4) (d : BitVec 6) (s : State) : Host.Outcome State Fault Refusal :=
  .next (s.arriveOn bar.toNat n.toNat (some d.toNat))
/-- ARRIVEW with a register count. -/
def execArrivewReg (bar : BitVec 8) (a d : BitVec 6) (s : State) : Host.Outcome State Fault Refusal :=
  .next (s.arriveOn bar.toNat ((s.rS a).extractLsb' 0 16).toNat (some d.toNat))
/-- WAIT: returns at once when the phase has passed; polls when its timeout is 0; else waits from its pick's issue on. An error that
its read finds lands in place of the status word (R316, R371). -/
def execWait (bar : BitVec 8) (phase : BitVec 4) (d a : BitVec 6) (s : State) : Host.Outcome State Fault Refusal :=
  .next (match s.binding bar.toNat with
    | none => s.stopSlot 0x209 1 0#64
    | some r =>
      match s.barrierAt s.me.launch r with
      | none =>
        s.resultS d.toNat 1 (barrierStatus ((s.loom s.cur.loom).lastSeen s.me.launch r) 2#4)
      | some o =>
        match s.readObject s.me.launch s.myTenancy r with
        | (some e, s0) => s0.resultFailed (.s d.toNat) 1 e
        | (none, s0) =>
          let s1 := s0.observe s.cur.loom s.me.launch r o.seen
          if o.ph ≠ phase then s1.resultS d.toNat 1 (barrierStatus o.seen 0#4)
          else if a ≠ 0#6 && s.rS a = 0#64 then s1.resultS d.toNat 1 (barrierStatus o.seen 1#4)
          else
            s1.thenWait (.barrier r d.toNat (if a = 0#6 then none else some (s.cycle + (s.rS a).toNat)) true))

/-! ## Events -/

/-- An arrival whose object's line has an error: the sequencer that made it stops before its next pick (R316, R371). -/
def Seq.arrivalFails (q : Seq) (a : Arrival) (e : LandingError) (cycle : Nat) : Seq :=
  match q.status with
  | .waiting (.barrier o d _ false) =>
    if o = a.object then q.comesBack d cycle 0#1024 (.failed e) else q
  | _ => { q with flight := q.flight ++ [
      { step := q.steps, dest := .s 0, mask := 0#1024, value := 0#1024, data := .failed e, pick := a.pick, fromStep := a.step, lane := 13 }] }
/-- ARRIVAL_UPDATE: the oldest arrival of a loom reaches its object's bank ALU, after every earlier access of its
sequencer has performed at cluster scope (R158). An overrun writes record 0x801; a completion releases the waiters. -/
def execArrivalUpdate (loom : Nat) (s : State) : Host.Outcome State Fault Refusal :=
  if 1280 ≤ loom then .fault .noSuchAgent
  else .next (match (s.loom loom).arriving with
    | [] => s
    | a :: rest =>
      let s1 := ((s.updLoom loom (fun l => { l with arriving := rest })).performEarlier loom 1).pinObject a.launch a.object false
      match s1.barrierAt a.launch a.object with
      | none =>
        s1.updLoom loom (fun l => l.mapSeqs a.launch (fun q =>
          match q.status with
          | .waiting (.barrier o d _ false) =>
            if o = a.object then q.returned d s.cycle (barrierStatus 0#5 2#4) else q
          | _ => q))
      | some o =>
        match s1.readObject a.launch a.tenancy a.object with
        | (some e, s1) => s1.updLoom loom (fun l => l.updSeqOf a.seq a.launch (fun q => q.arrivalFails a e s.cycle))
        | (none, s1) =>
        let r := o.arrive a.n
        let s2 := s1.setBarrier a.launch a.object r.1
        let s3 := match a.waits with
          | none => s2
          | some _ => (s2.observe loom a.launch a.object o.seen).updLoom loom (fun x => x.updSeqOf a.seq a.launch (fun q =>
              match q.status with
              | .waiting (.barrier o d x false) => { q with status := .waiting (.barrier o d x true) }
              | _ => q))
        let s4 := if r.2.1 then s3.releaseWaiters a.launch a.object r.1.seen else s3
        if r.2.2 then
          s4.report loom a.tenancy a.seq 13 0x801 a.pick a.step (operandOf a.object.seg 0 a.object.off) (some a.launch)
        else s4)
/-- Is a sequencer's wait due to time out? -/
def Seq.timesOut (q : Seq) (cycle : Nat) : Bool :=
  match q.status with
  | .waiting (.barrier _ _ (some x) _) => x ≤ cycle
  | _ => false
/-- WAIT_TIMEOUT: the count of a wait has expired before a completion (R386). The object is not read again: ER and PH of the object
that the wait registered with are as last observed (Table 9.11; DESIGN CHOICE, log 57), whatever its slot is bound to now (R407). -/
def execWaitTimeout (loom seq : Nat) (s : State) : Host.Outcome State Fault Refusal :=
  if 1280 ≤ loom || 8 ≤ seq then .fault .noSuchAgent
  else .next (match (s.seq loom seq).status with
    | .waiting (.barrier r d (some x) true) =>
      if x ≤ s.cycle then
        let seen := (s.loom loom).lastSeen (s.seq loom seq).launch r
        s.updSeq loom seq (fun q => q.returned d s.cycle (barrierStatus seen 1#4))
      else s
    | _ => s)

end Sys2Proof.Machine
end

