-- ==== Sys2Proof/WellFormed.lean ====
section
/-!
DEFINITION. What a well-formed instruction is: no encoding fault of R328, R329, R341 or Table 24.5 that its fields decide
alone, and agents that exist.
-/

namespace Sys2Proof

/-- The encoding faults of a slot operation; none for an event. -/
def Instr.slotFaults (i : Instr) : List Nat :=
  match i.slot with
  | some s => s.faults
  | none => []

/-- A well-formed instruction. -/
def Instr.wf (i : Instr) : Bool := i.slotFaults.isEmpty && i.agentsOk

end Sys2Proof
end

