-- ==== Sys2Proof/Decode.lean ====
section
/-!
DEFINITION. Picks and slots as bits: the decoder, total on any words, and the encoder written from the same tables
(spec/07). A slot's lane comes from its place in the pick (R111); one word can stand for different operations in
different lanes. A slot is refused with the lowest code of Table 23.2 that holds (R326).
-/

namespace Sys2Proof

/-- Bits lo + len − 1 to lo of a word. -/
abbrev fld (w : Word) (lo len : Nat) : BitVec len := w.extractLsb' lo len
/-- Bit k of a word. -/
abbrev bit (w : Word) (k : Nat) : Bool := w.getLsbD k
/-- H, bit 31 of every slot (R114). -/
def hBit (w : Word) : Bool := bit w 31
/-- OP, bits 30:25 of every slot (R114). -/
def opField (w : Word) : BitVec 6 := fld w 25 6
/-- I of a scalar slot (Table 7.3). -/
def iBit (w : Word) : Bool := bit w 12
/-- A field extended by its lent bits, the combined field sign-extended from its own top bit (R113). -/
def ext12 (w : Word) (l : Option (BitVec 10)) : BitVec 22 :=
  match l with
  | some l => l ++ fld w 0 12
  | none => (fld w 0 12).signExtend 22
/-- A branch offset: off18, or lent:off18 (R116). -/
def ext18 (w : Word) (l : Option (BitVec 10)) : BitVec 28 :=
  match l with
  | some l => l ++ fld w 0 18
  | none => (fld w 0 18).signExtend 28
/-- Lent bits read as zero where there are none (R119, R120). -/
def lent0 (l : Option (BitVec 10)) : BitVec 10 := l.getD 0#10
/-- SEG = lent[9:6]:SEG[7:0] (R119). -/
def segField (w : Word) (l : Option (BitVec 10)) : BitVec 12 := (lent0 l).extractLsb' 6 4 ++ fld w 10 8
/-- The lent bits of va, vb, vc (Table 7.7). -/
def rVecLent (l : BitVec 10) : VecLent := ⟨l.getLsbD 9, l.extractLsb' 4 5, l.extractLsb' 0 4⟩
/-- The guard of fn and so comes only from lent bits, when lent bit 9 is set (R118). -/
def rGuard (l : Option (BitVec 10)) : Option LentGuard :=
  match l with
  | some l => if l.getLsbD 9 then some ⟨l.extractLsb' 4 5, l.getLsbD 3⟩ else none
  | none => none
/-- The lent bits of mx, sh and jq (R120). -/
def rEng (l : Option (BitVec 10)) : EngLent :=
  ⟨(lent0 l).extractLsb' 2 8, (lent0 l).getLsbD 1, (lent0 l).getLsbD 0⟩

/-- The operands of a slot of a form (Tables 7.3 to 7.13). -/
def readOperands (f : Form) (w : Word) (l : Option (BitVec 10)) : Operands :=
  match f with
  | .bare => .bare
  | .branch => .branch (fld w 19 6) (bit w 18) (ext18 w l)
  | .callOff => .callOff (ext18 w l)
  | .reg => .reg (fld w 19 6)
  | .loopImm => .loopImm (fld w 8 10) (fld w 0 8)
  | .loopReg => .loopReg (fld w 19 6) (fld w 0 8)
  | .loopQueue => .loopQueue (fld w 23 2) (fld w 0 8)
  | .repImm => .repImm (fld w 8 10) (fld w 4 4)
  | .repReg => .repReg (fld w 19 6) (fld w 4 4)
  | .waitOn => .waitOn (fld w 17 8) (fld w 13 4) (fld w 7 6) (fld w 1 6)
  | .arriveImm => .arriveImm (fld w 17 8) (fld w 13 4)
  | .arriveReg => .arriveReg (fld w 17 8) (fld w 6 6)
  | .arrivewImm => .arrivewImm (fld w 17 8) (fld w 13 4) (fld w 0 6)
  | .arrivewReg => .arrivewReg (fld w 17 8) (fld w 6 6) (fld w 0 6)
  | .tokenMask => .tokenMask (fld w 17 8)
  | .spawn => .spawn (fld w 22 3) (fld w 16 6) (fld w 12 4) (ext12 w l)
  | .trapCode => .trapCode (fld w 0 8)
  | .markStep => .markStep (lent0 l ++ fld w 0 24)
  | .cqfill => .cqfill (fld w 23 2) (fld w 11 12) (fld w 5 6) (fld w 0 5)
  | .cqpush => .cqpush (fld w 23 2) (fld w 17 6)
  | .stream => .stream (fld w 19 6) (fld w 13 6)
  | .scalarReg => .scalarReg ⟨hBit w, fld w 19 6, fld w 13 6, fld w 6 6⟩
  | .scalarImm => .scalarImm ⟨hBit w, fld w 19 6, fld w 13 6, ext12 w l⟩
  | .scalarUnary => .scalarUnary ⟨hBit w, fld w 19 6, fld w 13 6⟩
  | .scalarSel => .scalarSel ⟨hBit w, fld w 19 6, fld w 13 6, fld w 6 6, l.map (fun x => x.extractLsb' 0 6)⟩
  | .scalarConst => .scalarConst ⟨hBit w, fld w 19 6, ext12 w l⟩
  | .movk => .movk ⟨hBit w, fld w 19 6, lent0 l ++ fld w 0 12⟩
  | .scalarQuery => .scalarQuery ⟨hBit w, fld w 19 6, fld w 6 6⟩
  | .scalarNum => .scalarNum ⟨hBit w, fld w 19 6, fld w 0 12⟩
  | .scalarWrsys => .scalarWrsys ⟨hBit w, fld w 13 6, fld w 0 12⟩
  | .scalarDest => .scalarDest ⟨hBit w, fld w 19 6⟩
  | .vec => .vec ⟨hBit w, fld w 23 2, fld w 20 3, fld w 15 5, fld w 8 7, fld w 3 5, fld w 0 3, l.map rVecLent⟩
  | .fn => .fn ⟨hBit w, fld w 23 2, fld w 21 2, fld w 14 7, fld w 7 7, fld w 0 7, rGuard l⟩
  | .sort => .sort ⟨hBit w, fld w 23 2, fld w 20 3, fld w 13 7, fld w 6 7, fld w 3 3, fld w 0 3, rGuard l⟩
  | .memSeg => .memSeg ⟨hBit w, fld w 18 7, segField w l, fld w 4 6, (lent0 l).extractLsb' 0 6, fld w 0 4⟩
  | .memCross => .memCross ⟨hBit w, fld w 18 7, segField w l, fld w 4 6, (lent0 l).extractLsb' 0 6, fld w 0 4⟩
  | .memAcq => .memAcq ⟨hBit w, fld w 18 7, segField w l, fld w 4 6, (lent0 l).extractLsb' 0 3, fld w 0 4⟩
  | .fence => .fence ⟨hBit w, fld w 9 16, fld w 6 3, fld w 4 2⟩
  | .vaultRow => .vaultRow ⟨hBit w, fld w 20 5, fld w 12 8, fld w 0 4⟩
  | .vaultRef => .vaultRef ⟨hBit w, fld w 20 5, fld w 17 3, fld w 0 4⟩
  | .vaultCol => .vaultCol ⟨hBit w, fld w 18 7, fld w 13 5, fld w 7 6, fld w 5 2, fld w 0 4⟩
  | .memFar => .memFar ⟨hBit w, fld w 18 7, fld w 4 6, fld w 0 4⟩
  | .mx => .mx ⟨hBit w, fld w 22 3, fld w 19 3, fld w 16 3, fld w 10 6, fld w 4 6, fld w 0 4, rEng l⟩
  | .zs => .zs ⟨hBit w, fld w 22 3, fld w 16 6, fld w 10 6⟩
  | .sh => .sh ⟨hBit w, fld w 19 6, fld w 13 6, fld w 7 6, fld w 4 3, fld w 0 4, rEng l⟩
  | .jq => .jq ⟨hBit w, fld w 19 6, fld w 13 6, fld w 7 6, fld w 3 4, fld w 0 3, rEng l⟩

/-! ## The opcodes of each lane (Tables 7.4 to 7.14) -/

/-- Table 7.4; i is bit I. -/
def scalarMnemonic (op : Nat) (i : Bool) : Option Mnemonic :=
  match op with
  | 0x01 => some (if i then .addImm else .add)
  | 0x02 => some (if i then .subImm else .sub)
  | 0x03 => some (if i then .mulImm else .mul)
  | 0x04 => some (if i then .mulhImm else .mulh)
  | 0x05 => some (if i then .mulhuImm else .mulhu)
  | 0x06 => some (if i then .divImm else .div)
  | 0x07 => some (if i then .divuImm else .divu)
  | 0x08 => some (if i then .remImm else .rem)
  | 0x09 => some (if i then .remuImm else .remu)
  | 0x0A => some (if i then .andImm else .and)
  | 0x0B => some (if i then .orImm else .or)
  | 0x0C => some (if i then .xorImm else .xor)
  | 0x0D => some (if i then .andnImm else .andn)
  | 0x0E => some (if i then .shlImm else .shl)
  | 0x0F => some (if i then .shrImm else .shr)
  | 0x10 => some (if i then .sarImm else .sar)
  | 0x11 => some (if i then .rolImm else .rol)
  | 0x12 => some (if i then .minImm else .min)
  | 0x13 => some (if i then .maxImm else .max)
  | 0x14 => some (if i then .minuImm else .minu)
  | 0x15 => some (if i then .maxuImm else .maxu)
  | 0x16 => some (if i then .seqImm else .seq)
  | 0x17 => some (if i then .sneImm else .sne)
  | 0x18 => some (if i then .sltImm else .slt)
  | 0x19 => some (if i then .sltuImm else .sltu)
  | 0x1A => some (if i then .sleImm else .sle)
  | 0x1B => some (if i then .sleuImm else .sleu)
  | 0x1C => some (if i then .cselImm else .csel)
  | 0x1D => some .movi
  | 0x1E => some .movk
  | 0x1F => some .clz
  | 0x20 => some .ctz
  | 0x21 => some .popc
  | 0x22 => some (if i then .bextImm else .bext)
  | 0x23 => some (if i then .binsImm else .bins)
  | 0x24 => some (if i then .sextImm else .sext)
  | 0x25 => some .fadd64
  | 0x26 => some .fsub64
  | 0x27 => some .fmul64
  | 0x28 => some .fdiv64
  | 0x29 => some .fmin64
  | 0x2A => some .fmax64
  | 0x2B => some .feq
  | 0x2C => some .flt
  | 0x2D => some .fle
  | 0x2E => some .fcvtfi
  | 0x2F => some .fcvtif
  | 0x30 => some .fsqrt64
  | 0x31 => some .rdsys
  | 0x32 => some .wrsys
  | 0x33 => some (if i then .segqImm else .segq)
  | 0x34 => some .whoami
  | 0x35 => some (if i then .rdcntImm else .rdcnt)
  | 0x36 => some .lidx
  | 0x37 => some .rdtok
  | 0x38 => some .rdtag
  | _ => none

/-- Table 7.6; i is bit I of the form, where it has one. -/
def controlMnemonic (op : Nat) (i : Bool) : Option Mnemonic :=
  match op with
  | 0x01 => some .brc
  | 0x02 => some .call
  | 0x03 => some .jmp
  | 0x04 => some .calli
  | 0x05 => some .ret
  | 0x06 => some (if i then .loop else .loopReg)
  | 0x07 => some .loopq
  | 0x08 => some .brkl
  | 0x09 => some (if i then .rep else .repReg)
  | 0x0A => some .wait
  | 0x0B => some (if i then .arrive else .arriveReg)
  | 0x0C => some (if i then .arrivew else .arrivewReg)
  | 0x0D => some .dtwait
  | 0x0E => some .spawn
  | 0x0F => some .halt
  | 0x10 => some .trap
  | 0x11 => some .mark
  | 0x12 => some .yield
  | 0x13 => some .taga
  | 0x14 => some .tret
  | 0x15 => some .tfold
  | 0x16 => some .tset
  | 0x17 => some .cqfill
  | 0x18 => some .cqpush
  | 0x19 => some .launch
  | 0x1A => some .waitw
  | 0x1B => some .signal
  | _ => none

/-- Table 7.9. -/
def vectorMnemonic (op : Nat) : Option Mnemonic :=
  match op with
  | 0x01 => some .fadd
  | 0x02 => some .fsub
  | 0x03 => some .fmul
  | 0x04 => some .fma
  | 0x05 => some .fmin
  | 0x06 => some .fmax
  | 0x07 => some .fabs
  | 0x08 => some .fneg
  | 0x09 => some .iadd
  | 0x0A => some .isub
  | 0x0B => some .imul
  | 0x0C => some .imulh
  | 0x0D => some .iand
  | 0x0E => some .ior
  | 0x0F => some .ixor
  | 0x10 => some .ishl
  | 0x11 => some .ishr
  | 0x12 => some .isar
  | 0x13 => some .imin
  | 0x14 => some .imax
  | 0x15 => some .iminu
  | 0x16 => some .imaxu
  | 0x17 => some .iaddi
  | 0x18 => some .idot4
  | 0x19 => some .vcmp
  | 0x1A => some .vsel
  | 0x1B => some .vmov
  | 0x1C => some .vbcs
  | 0x1D => some .vidx
  | 0x1E => some .vshuf
  | 0x1F => some .vrot
  | 0x20 => some .vcat
  | 0x21 => some .vred
  | 0x22 => some .vscan
  | 0x23 => some .vput
  | 0x24 => some .vcvt
  | 0x25 => some .vpack
  | 0x26 => some .vunpk
  | 0x27 => some .vmaxe
  | 0x28 => some .vqnt
  | 0x29 => some .vdeq
  | 0x2A => some .vrmm
  | 0x2B => some .pand
  | 0x2C => some .por
  | 0x2D => some .pxor
  | 0x2E => some .pnot
  | 0x2F => some .pmov
  | 0x30 => some .vclass
  | 0x31 => some .vrnd
  | _ => none

/-- The fn opcodes (R118). -/
def fnMnemonic (op : Nat) : Option Mnemonic :=
  match op with
  | 0x01 => some .frcp
  | 0x02 => some .frsqrt
  | 0x03 => some .fnFsqrt
  | 0x04 => some .fnFdiv
  | 0x05 => some .fexp2
  | 0x06 => some .flog2
  | 0x07 => some .fexp
  | 0x08 => some .flog
  | 0x09 => some .fsin
  | 0x0A => some .fcos
  | 0x0B => some .ftanh
  | 0x0C => some .fsigm
  | 0x0D => some .ferf
  | _ => none

/-- The so opcodes (R118). -/
def sortMnemonic (op : Nat) : Option Mnemonic :=
  match op with
  | 0x01 => some .scxd
  | 0x02 => some .scxa
  | 0x03 => some .scxb
  | 0x04 => some .scx2d
  | 0x05 => some .scx2a
  | _ => none

/-- Table 7.12. -/
def memoryMnemonic (op : Nat) : Option Mnemonic :=
  match op with
  | 0x01 => some .lb
  | 0x02 => some .lbu
  | 0x03 => some .lh
  | 0x04 => some .lhu
  | 0x05 => some .lw
  | 0x06 => some .lwu
  | 0x07 => some .ld
  | 0x08 => some .sb
  | 0x09 => some .sh
  | 0x0A => some .sw
  | 0x0B => some .sd
  | 0x0C => some .lvW256
  | 0x0D => some .lvW512
  | 0x0E => some .lvW1024
  | 0x0F => some .svW256
  | 0x10 => some .svW512
  | 0x11 => some .svW1024
  | 0x12 => some .lvg
  | 0x13 => some .svg
  | 0x14 => some .ldx
  | 0x15 => some .lvx
  | 0x16 => some .aadd
  | 0x17 => some .afadd
  | 0x18 => some .amin
  | 0x19 => some .amax
  | 0x1A => some .aminu
  | 0x1B => some .amaxu
  | 0x1C => some .aand
  | 0x1D => some .aor
  | 0x1E => some .axor
  | 0x1F => some .axch
  | 0x20 => some .acas
  | 0x21 => some .aadd64
  | 0x22 => some .axch64
  | 0x23 => some .acas64
  | 0x24 => some .fence
  | 0x25 => some .lacq
  | 0x26 => some .srel
  | 0x27 => some .binit
  | 0x28 => some .bbind
  | 0x29 => some .btx
  | 0x2A => some .vact
  | 0x2B => some .vpre
  | 0x2C => some .vref
  | 0x2D => some .vld
  | 0x2E => some .vst
  | 0x2F => some .vldr
  | 0x30 => some .vstr
  | 0x31 => some .lfd
  | 0x32 => some .sfd
  | _ => none

/-- Table 7.14, mx. -/
def matrixMnemonic (op : Nat) : Option Mnemonic :=
  match op with
  | 0x01 => some .mma
  | 0x02 => some .mmaz
  | 0x03 => some .mmag
  | 0x04 => some .mzero
  | 0x05 => some .mdrain
  | 0x06 => some .mshape
  | 0x07 => some .mwin
  | 0x08 => some .mmaw
  | 0x09 => some .mload
  | _ => none

/-- Table 7.14, zs. -/
def scaleMnemonic (op : Nat) : Option Mnemonic :=
  match op with
  | 0x01 => some .zld
  | 0x02 => some .zadd
  | 0x03 => some .zset
  | _ => none

/-- Table 7.14, sh. -/
def shuttleMnemonic (op : Nat) : Option Mnemonic :=
  match op with
  | 0x01 => some .copy
  | 0x02 => some .mcast
  | 0x03 => some .reduce
  | 0x04 => some .post
  | 0x05 => some .recall
  | 0x06 => some .pushout
  | 0x07 => some .fill
  | 0x08 => some .gthr
  | 0x09 => some .sctr
  | 0x0A => some .vxfer
  | 0x0B => some .copyb
  | _ => none

/-- Table 7.14, jq. -/
def jacquardMnemonic (op : Nat) : Option Mnemonic :=
  match op with
  | 0x01 => some .jcfg
  | 0x02 => some .jord
  | 0x03 => some .jvar
  | 0x04 => some .jmk
  | 0x05 => some .japp
  | 0x06 => some .jite
  | 0x07 => some .jres
  | 0x08 => some .jexq
  | 0x09 => some .jcnt
  | 0x0A => some .jsat
  | 0x0B => some .jexp
  | 0x0C => some .jref
  | 0x0D => some .jdrf
  | 0x0E => some .jgc
  | 0x0F => some .jstat
  | 0x10 => some .jclr
  | _ => none

/-- I of a control slot: bit 18 of loop and rep, bit 12 of arrive and arrivew (Table 7.5). -/
def controlI (w : Word) : Bool :=
  let op := (opField w).toNat
  if op = 0x0B || op = 0x0C then bit w 12 else bit w 18

/-- The operation that an opcode names in a lane; none where it is reserved. -/
def mnemonicOf (lane : Lane) (w : Word) : Option Mnemonic :=
  let op := (opField w).toNat
  match lane with
  | .sa => scalarMnemonic op (iBit w) | .sb => scalarMnemonic op (iBit w)
  | .va => vectorMnemonic op | .vb => vectorMnemonic op | .vc => vectorMnemonic op
  | .fn => fnMnemonic op | .so => sortMnemonic op
  | .ma => memoryMnemonic op | .mb => memoryMnemonic op
  | .mx => matrixMnemonic op | .zs => scaleMnemonic op | .sh => shuttleMnemonic op | .jq => jacquardMnemonic op
  | .cf => controlMnemonic op (controlI w)

/-- The operation and operands of a slot, before any check; none for a reserved opcode. -/
def readSlot (lane : Lane) (w : Word) (l : Option (BitVec 10)) : Option Slot :=
  (mnemonicOf lane w).map (fun m => ⟨m, readOperands m.form w l⟩)

/-! ## The encoder -/

/-- H and OP, then 25 bits of fields. -/
def wordOf (h : Bool) (op : BitVec 6) (rest : BitVec 25) : Word := BitVec.ofBool h ++ op ++ rest
/-- The word of the operands of an operation (Tables 7.3 to 7.13). -/
def writeOperands (op : BitVec 6) (ops : Operands) : Word :=
  match ops with
  | .bare => wordOf false op 0#25
  | .branch a n off => wordOf false op (a ++ BitVec.ofBool n ++ off.extractLsb' 0 18)
  | .callOff off => wordOf false op (0#7 ++ off.extractLsb' 0 18)
  | .reg a => wordOf false op (a ++ 0#19)
  | .loopImm cnt len => wordOf false op (0#6 ++ 1#1 ++ cnt ++ len)
  | .loopReg a len => wordOf false op (a ++ 0#1 ++ 0#10 ++ len)
  | .loopQueue q len => wordOf false op (q ++ 0#15 ++ len)
  | .repImm cnt stride => wordOf false op (0#6 ++ 1#1 ++ cnt ++ stride ++ 0#4)
  | .repReg a stride => wordOf false op (a ++ 0#1 ++ 0#10 ++ stride ++ 0#4)
  | .waitOn bar phase d a => wordOf false op (bar ++ phase ++ d ++ a ++ 0#1)
  | .arriveImm bar n => wordOf false op (bar ++ n ++ 1#1 ++ 0#12)
  | .arriveReg bar a => wordOf false op (bar ++ 0#4 ++ 0#1 ++ a ++ 0#6)
  | .arrivewImm bar n d => wordOf false op (bar ++ n ++ 1#1 ++ 0#6 ++ d)
  | .arrivewReg bar a d => wordOf false op (bar ++ 0#4 ++ 0#1 ++ a ++ d)
  | .tokenMask mask => wordOf false op (mask ++ 0#17)
  | .spawn target base count entry => wordOf false op (target ++ base ++ count ++ entry.extractLsb' 0 12)
  | .trapCode code => wordOf false op (0#17 ++ code)
  | .markStep mstep => wordOf false op (0#1 ++ mstep.extractLsb' 0 24)
  | .cqfill q seg o cnt => wordOf false op (q ++ seg ++ o ++ cnt)
  | .cqpush q a => wordOf false op (q ++ a ++ 0#17)
  | .stream a b => wordOf false op (a ++ b ++ 0#13)
  | .scalarReg o => wordOf o.h op (o.d ++ o.a ++ 0#1 ++ o.b ++ 0#6)
  | .scalarImm o => wordOf o.h op (o.d ++ o.a ++ 1#1 ++ o.imm.extractLsb' 0 12)
  | .scalarUnary o => wordOf o.h op (o.d ++ o.a ++ 0#13)
  | .scalarSel o => wordOf o.h op (o.d ++ o.a ++ 0#1 ++ o.b ++ 0#6)
  | .scalarConst o => wordOf o.h op (o.d ++ 0#6 ++ 1#1 ++ o.imm.extractLsb' 0 12)
  | .movk o => wordOf o.h op (o.d ++ 0#6 ++ 1#1 ++ o.imm.extractLsb' 0 12)
  | .scalarQuery o => wordOf o.h op (o.d ++ 0#6 ++ 0#1 ++ o.b ++ 0#6)
  | .scalarNum o => wordOf o.h op (o.d ++ 0#6 ++ 1#1 ++ o.num)
  | .scalarWrsys o => wordOf o.h op (0#6 ++ o.a ++ 1#1 ++ o.num)
  | .scalarDest o => wordOf o.h op (o.d ++ 0#19)
  | .vec o => wordOf o.h op (o.w ++ o.t ++ o.d ++ o.a ++ o.b ++ o.g)
  | .fn o => wordOf o.h op (o.w ++ o.t ++ o.d ++ o.a ++ o.b)
  | .sort o => wordOf o.h op (o.w ++ o.t ++ o.k ++ o.p ++ o.j ++ o.x)
  | .memSeg o => wordOf o.h op (o.e ++ o.seg.extractLsb' 0 8 ++ o.o ++ o.cl)
  | .memCross o => wordOf o.h op (o.e ++ o.seg.extractLsb' 0 8 ++ o.o ++ o.cl)
  | .memAcq o => wordOf o.h op (o.e ++ o.seg.extractLsb' 0 8 ++ o.o ++ o.cl)
  | .fence o => wordOf o.h op (o.mask ++ o.scope ++ o.kind ++ 0#4)
  | .vaultRow o => wordOf o.h op (o.bank ++ o.row ++ 0#8 ++ o.cl)
  | .vaultRef o => wordOf o.h op (o.bank ++ o.group ++ 0#13 ++ o.cl)
  | .vaultCol o => wordOf o.h op (o.e ++ o.bank ++ o.col ++ o.ord ++ 0#1 ++ o.cl)
  | .memFar o => wordOf o.h op (o.e ++ 0#8 ++ o.o ++ o.cl)
  | .mx o => wordOf o.h op (o.ac ++ o.fa ++ o.fb ++ o.ra ++ o.rb ++ o.tk)
  | .zs o => wordOf o.h op (o.ac ++ o.ra ++ o.rb ++ 0#10)
  | .sh o => wordOf o.h op (o.rd ++ o.rs ++ o.rn ++ o.sc ++ o.tk)
  | .jq o => wordOf o.h op (o.d ++ o.a ++ o.b ++ o.fn ++ o.tk)

/-- The lent bits of va, vb, vc (Table 7.7). -/
def lentVec (l : Option VecLent) : BitVec 10 :=
  match l with
  | some l => BitVec.ofBool l.gn ++ l.c ++ l.low
  | none => 0#10
/-- The lent bits of fn and so (R118). -/
def lentGuard (g : Option LentGuard) : BitVec 10 :=
  match g with
  | some g => 1#1 ++ g.q ++ BitVec.ofBool g.neg ++ 0#3
  | none => 0#10
/-- The lent bits of mx, sh and jq (R120). -/
def lentEng (e : EngLent) : BitVec 10 := e.wm ++ BitVec.ofBool e.aq ++ BitVec.ofBool e.rl
/-- A 22-bit immediate that imm12 alone carries (R113). -/
def fitsSigned (imm : BitVec 22) : Bool := (imm.extractLsb' 0 12).signExtend 22 == imm

/-- The ten lent bits that go with the operands wherever a lend slot serves them (R113). -/
def lentField (ops : Operands) : BitVec 10 :=
  match ops with
  | .branch _ _ off => off.extractLsb' 18 10
  | .callOff off => off.extractLsb' 18 10
  | .spawn _ _ _ entry => entry.extractLsb' 12 10
  | .markStep mstep => mstep.extractLsb' 24 10
  | .scalarImm o => o.imm.extractLsb' 12 10
  | .scalarSel o => (match o.c with | some c => 0#4 ++ c | none => 0#10)
  | .scalarConst o => o.imm.extractLsb' 12 10
  | .movk o => o.imm.extractLsb' 12 10
  | .vec o => lentVec o.lent
  | .fn o => lentGuard o.guard
  | .sort o => lentGuard o.guard
  | .memSeg o => o.seg.extractLsb' 8 4 ++ o.imm6
  | .memCross o => o.seg.extractLsb' 8 4 ++ o.tagReg
  | .memAcq o => o.seg.extractLsb' 8 4 ++ 0#3 ++ o.scope
  | .mx o => lentEng o.eng
  | .sh o => lentEng o.eng
  | .jq o => lentEng o.eng
  | _ => 0#10

/-- Do the operands need a lend slot? -/
def needsLent (ops : Operands) : Bool :=
  match ops with
  | .branch _ _ off => (off.extractLsb' 0 18).signExtend 28 != off
  | .callOff off => (off.extractLsb' 0 18).signExtend 28 != off
  | .spawn _ _ _ entry => (entry.extractLsb' 0 12).signExtend 22 != entry
  | .markStep mstep => mstep.extractLsb' 24 10 != 0#10
  | .scalarImm o => !fitsSigned o.imm
  | .scalarSel o => o.c.isSome
  | .scalarConst o => !fitsSigned o.imm
  | .movk o => o.imm.extractLsb' 12 10 != 0#10
  | .vec o => o.lent.isSome
  | .fn o => o.guard.isSome
  | .sort o => o.guard.isSome
  | .memSeg o => o.seg.extractLsb' 8 4 ++ o.imm6 != 0#10
  | .memCross o => o.seg.extractLsb' 8 4 ++ o.tagReg != 0#10
  | .memAcq o => o.seg.extractLsb' 8 4 ++ 0#3 ++ o.scope != 0#10
  | .mx o => lentEng o.eng != 0#10
  | .sh o => lentEng o.eng != 0#10
  | .jq o => lentEng o.eng != 0#10
  | _ => false

/-- The word of a slot; the nop of every lane is 1 (R112). -/
def Slot.word (s : Slot) : Word := if s.m = .nop then 1#32 else writeOperands s.m.op s.o
/-- The lent bits of a slot, where it needs them. -/
def Slot.lent (s : Slot) : Option (BitVec 10) := if needsLent s.o then some (lentField s.o) else none

/-- The word of a slot operation; zero, the filler, for an event. -/
def encodeWord (i : Instr) : Word :=
  match i.slot with
  | some s => s.word
  | none => 0#32
/-- The lent bits of an instruction, where it needs them. -/
def encodeLent (i : Instr) : Option (BitVec 10) :=
  match i.slot with
  | some s => s.lent
  | none => none

/-- Every lane. -/
def allLanes : List Lane := [.sa, .sb, .va, .vb, .vc, .fn, .so, .ma, .mb, .mx, .zs, .sh, .jq, .cf]

/-- The lanes that the operations of a form are listed for (Tables 7.4 to 7.14); cf for every control form but nop's. -/
def Form.lanes (f : Form) : List Lane :=
  match f with
  | .scalarReg => [.sa, .sb] | .scalarImm => [.sa, .sb] | .scalarUnary => [.sa, .sb] | .scalarSel => [.sa, .sb]
  | .scalarConst => [.sa, .sb] | .movk => [.sa, .sb] | .scalarQuery => [.sa, .sb] | .scalarNum => [.sa, .sb]
  | .scalarWrsys => [.sa, .sb] | .scalarDest => [.sa, .sb]
  | .vec => [.va, .vb, .vc] | .fn => [.fn] | .sort => [.so]
  | .memSeg => [.ma, .mb] | .memCross => [.ma, .mb] | .memAcq => [.ma, .mb] | .fence => [.ma, .mb]
  | .vaultRow => [.ma, .mb] | .vaultRef => [.ma, .mb] | .vaultCol => [.ma, .mb] | .memFar => [.ma, .mb]
  | .mx => [.mx] | .zs => [.zs] | .sh => [.sh] | .jq => [.jq]
  | _ => [.cf]
/-- The lanes of a mnemonic. -/
def Mnemonic.lanes (m : Mnemonic) : List Lane := if m = .nop then allLanes else m.form.lanes
/-- The lanes that an operation is listed for; none for an event. -/
def Instr.lanes (i : Instr) : List Lane :=
  match i.slot with
  | some s => s.m.lanes
  | none => []

/-! ## One slot -/

/-- The instruction of a slot; none where the operands are of another form. -/
noncomputable def Slot.instr (s : Slot) : Option Instr :=
  match s.m, s.o with
  | .nop, .bare => some .nop
  | .add, .scalarReg o => some (.add o)
  | .addImm, .scalarImm o => some (.addImm o)
  | .sub, .scalarReg o => some (.sub o)
  | .subImm, .scalarImm o => some (.subImm o)
  | .mul, .scalarReg o => some (.mul o)
  | .mulImm, .scalarImm o => some (.mulImm o)
  | .mulh, .scalarReg o => some (.mulh o)
  | .mulhImm, .scalarImm o => some (.mulhImm o)
  | .mulhu, .scalarReg o => some (.mulhu o)
  | .mulhuImm, .scalarImm o => some (.mulhuImm o)
  | .div, .scalarReg o => some (.div o)
  | .divImm, .scalarImm o => some (.divImm o)
  | .divu, .scalarReg o => some (.divu o)
  | .divuImm, .scalarImm o => some (.divuImm o)
  | .rem, .scalarReg o => some (.rem o)
  | .remImm, .scalarImm o => some (.remImm o)
  | .remu, .scalarReg o => some (.remu o)
  | .remuImm, .scalarImm o => some (.remuImm o)
  | .and, .scalarReg o => some (.and o)
  | .andImm, .scalarImm o => some (.andImm o)
  | .or, .scalarReg o => some (.or o)
  | .orImm, .scalarImm o => some (.orImm o)
  | .xor, .scalarReg o => some (.xor o)
  | .xorImm, .scalarImm o => some (.xorImm o)
  | .andn, .scalarReg o => some (.andn o)
  | .andnImm, .scalarImm o => some (.andnImm o)
  | .shl, .scalarReg o => some (.shl o)
  | .shlImm, .scalarImm o => some (.shlImm o)
  | .shr, .scalarReg o => some (.shr o)
  | .shrImm, .scalarImm o => some (.shrImm o)
  | .sar, .scalarReg o => some (.sar o)
  | .sarImm, .scalarImm o => some (.sarImm o)
  | .rol, .scalarReg o => some (.rol o)
  | .rolImm, .scalarImm o => some (.rolImm o)
  | .min, .scalarReg o => some (.min o)
  | .minImm, .scalarImm o => some (.minImm o)
  | .max, .scalarReg o => some (.max o)
  | .maxImm, .scalarImm o => some (.maxImm o)
  | .minu, .scalarReg o => some (.minu o)
  | .minuImm, .scalarImm o => some (.minuImm o)
  | .maxu, .scalarReg o => some (.maxu o)
  | .maxuImm, .scalarImm o => some (.maxuImm o)
  | .seq, .scalarReg o => some (.seq o)
  | .seqImm, .scalarImm o => some (.seqImm o)
  | .sne, .scalarReg o => some (.sne o)
  | .sneImm, .scalarImm o => some (.sneImm o)
  | .slt, .scalarReg o => some (.slt o)
  | .sltImm, .scalarImm o => some (.sltImm o)
  | .sltu, .scalarReg o => some (.sltu o)
  | .sltuImm, .scalarImm o => some (.sltuImm o)
  | .sle, .scalarReg o => some (.sle o)
  | .sleImm, .scalarImm o => some (.sleImm o)
  | .sleu, .scalarReg o => some (.sleu o)
  | .sleuImm, .scalarImm o => some (.sleuImm o)
  | .csel, .scalarSel o => some (.csel o)
  | .cselImm, .scalarImm o => some (.cselImm o)
  | .movi, .scalarConst o => some (.movi o)
  | .movk, .movk o => some (.movk o)
  | .clz, .scalarUnary o => some (.clz o)
  | .ctz, .scalarUnary o => some (.ctz o)
  | .popc, .scalarUnary o => some (.popc o)
  | .bext, .scalarReg o => some (.bext o)
  | .bextImm, .scalarImm o => some (.bextImm o)
  | .bins, .scalarSel o => some (.bins o)
  | .binsImm, .scalarImm o => some (.binsImm o)
  | .sext, .scalarReg o => some (.sext o)
  | .sextImm, .scalarImm o => some (.sextImm o)
  | .fadd64, .scalarReg o => some (.fadd64 o)
  | .fsub64, .scalarReg o => some (.fsub64 o)
  | .fmul64, .scalarReg o => some (.fmul64 o)
  | .fdiv64, .scalarReg o => some (.fdiv64 o)
  | .fmin64, .scalarReg o => some (.fmin64 o)
  | .fmax64, .scalarReg o => some (.fmax64 o)
  | .feq, .scalarReg o => some (.feq o)
  | .flt, .scalarReg o => some (.flt o)
  | .fle, .scalarReg o => some (.fle o)
  | .fcvtfi, .scalarUnary o => some (.fcvtfi o)
  | .fcvtif, .scalarUnary o => some (.fcvtif o)
  | .fsqrt64, .scalarUnary o => some (.fsqrt64 o)
  | .rdsys, .scalarNum o => some (.rdsys o)
  | .wrsys, .scalarWrsys o => some (.wrsys o)
  | .segq, .scalarQuery o => some (.segq o)
  | .segqImm, .scalarConst o => some (.segqImm o)
  | .whoami, .scalarNum o => some (.whoami o)
  | .rdcnt, .scalarQuery o => some (.rdcnt o)
  | .rdcntImm, .scalarConst o => some (.rdcntImm o)
  | .lidx, .scalarNum o => some (.lidx o)
  | .rdtok, .scalarDest o => some (.rdtok o)
  | .rdtag, .scalarDest o => some (.rdtag o)
  | .brc, .branch a n off => some (.brc a n off)
  | .call, .callOff off => some (.call off)
  | .jmp, .reg a => some (.jmp a)
  | .calli, .reg a => some (.calli a)
  | .ret, .bare => some .ret
  | .loop, .loopImm cnt len => some (.loop cnt len)
  | .loopReg, .loopReg a len => some (.loopReg a len)
  | .loopq, .loopQueue q len => some (.loopq q len)
  | .brkl, .bare => some .brkl
  | .rep, .repImm cnt stride => some (.rep cnt stride)
  | .repReg, .repReg a stride => some (.repReg a stride)
  | .wait, .waitOn bar phase d a => some (.wait bar phase d a)
  | .arrive, .arriveImm bar n => some (.arrive bar n)
  | .arriveReg, .arriveReg bar a => some (.arriveReg bar a)
  | .arrivew, .arrivewImm bar n d => some (.arrivew bar n d)
  | .arrivewReg, .arrivewReg bar a d => some (.arrivewReg bar a d)
  | .dtwait, .tokenMask mask => some (.dtwait mask)
  | .spawn, .spawn target base count entry => some (.spawn target base count entry)
  | .halt, .bare => some .halt
  | .trap, .trapCode code => some (.trap code)
  | .mark, .markStep mstep => some (.mark mstep)
  | .yield, .bare => some .yield
  | .taga, .reg a => some (.taga a)
  | .tret, .reg a => some (.tret a)
  | .tfold, .reg a => some (.tfold a)
  | .tset, .reg a => some (.tset a)
  | .cqfill, .cqfill q seg o cnt => some (.cqfill q seg o cnt)
  | .cqpush, .cqpush q a => some (.cqpush q a)
  | .launch, .stream a b => some (.launch a b)
  | .waitw, .stream a b => some (.waitw a b)
  | .signal, .stream a b => some (.signal a b)
  | .fadd, .vec o => some (.fadd o)
  | .fsub, .vec o => some (.fsub o)
  | .fmul, .vec o => some (.fmul o)
  | .fma, .vec o => some (.fma o)
  | .fmin, .vec o => some (.fmin o)
  | .fmax, .vec o => some (.fmax o)
  | .fabs, .vec o => some (.fabs o)
  | .fneg, .vec o => some (.fneg o)
  | .iadd, .vec o => some (.iadd o)
  | .isub, .vec o => some (.isub o)
  | .imul, .vec o => some (.imul o)
  | .imulh, .vec o => some (.imulh o)
  | .iand, .vec o => some (.iand o)
  | .ior, .vec o => some (.ior o)
  | .ixor, .vec o => some (.ixor o)
  | .ishl, .vec o => some (.ishl o)
  | .ishr, .vec o => some (.ishr o)
  | .isar, .vec o => some (.isar o)
  | .imin, .vec o => some (.imin o)
  | .imax, .vec o => some (.imax o)
  | .iminu, .vec o => some (.iminu o)
  | .imaxu, .vec o => some (.imaxu o)
  | .iaddi, .vec o => some (.iaddi o)
  | .idot4, .vec o => some (.idot4 o)
  | .vcmp, .vec o => some (.vcmp o)
  | .vsel, .vec o => some (.vsel o)
  | .vmov, .vec o => some (.vmov o)
  | .vbcs, .vec o => some (.vbcs o)
  | .vidx, .vec o => some (.vidx o)
  | .vshuf, .vec o => some (.vshuf o)
  | .vrot, .vec o => some (.vrot o)
  | .vcat, .vec o => some (.vcat o)
  | .vred, .vec o => some (.vred o)
  | .vscan, .vec o => some (.vscan o)
  | .vput, .vec o => some (.vput o)
  | .vcvt, .vec o => some (.vcvt o)
  | .vpack, .vec o => some (.vpack o)
  | .vunpk, .vec o => some (.vunpk o)
  | .vmaxe, .vec o => some (.vmaxe o)
  | .vqnt, .vec o => some (.vqnt o)
  | .vdeq, .vec o => some (.vdeq o)
  | .vrmm, .vec o => some (.vrmm o)
  | .pand, .vec o => some (.pand o)
  | .por, .vec o => some (.por o)
  | .pxor, .vec o => some (.pxor o)
  | .pnot, .vec o => some (.pnot o)
  | .pmov, .vec o => some (.pmov o)
  | .vclass, .vec o => some (.vclass o)
  | .vrnd, .vec o => some (.vrnd o)
  | .frcp, .fn o => some (.frcp o)
  | .frsqrt, .fn o => some (.frsqrt o)
  | .fnFsqrt, .fn o => some (.fnFsqrt o)
  | .fnFdiv, .fn o => some (.fnFdiv o)
  | .fexp2, .fn o => some (.fexp2 o)
  | .flog2, .fn o => some (.flog2 o)
  | .fexp, .fn o => some (.fexp o)
  | .flog, .fn o => some (.flog o)
  | .fsin, .fn o => some (.fsin o)
  | .fcos, .fn o => some (.fcos o)
  | .ftanh, .fn o => some (.ftanh o)
  | .fsigm, .fn o => some (.fsigm o)
  | .ferf, .fn o => some (.ferf o)
  | .scxd, .sort o => some (.scxd o)
  | .scxa, .sort o => some (.scxa o)
  | .scxb, .sort o => some (.scxb o)
  | .scx2d, .sort o => some (.scx2d o)
  | .scx2a, .sort o => some (.scx2a o)
  | .lb, .memSeg o => some (.lb o)
  | .lbu, .memSeg o => some (.lbu o)
  | .lh, .memSeg o => some (.lh o)
  | .lhu, .memSeg o => some (.lhu o)
  | .lw, .memSeg o => some (.lw o)
  | .lwu, .memSeg o => some (.lwu o)
  | .ld, .memSeg o => some (.ld o)
  | .sb, .memSeg o => some (.sb o)
  | .sh, .memSeg o => some (.sh o)
  | .sw, .memSeg o => some (.sw o)
  | .sd, .memSeg o => some (.sd o)
  | .lvW256, .memSeg o => some (.lvW256 o)
  | .lvW512, .memSeg o => some (.lvW512 o)
  | .lvW1024, .memSeg o => some (.lvW1024 o)
  | .svW256, .memSeg o => some (.svW256 o)
  | .svW512, .memSeg o => some (.svW512 o)
  | .svW1024, .memSeg o => some (.svW1024 o)
  | .lvg, .memSeg o => some (.lvg o)
  | .svg, .memSeg o => some (.svg o)
  | .ldx, .memCross o => some (.ldx o)
  | .lvx, .memCross o => some (.lvx o)
  | .aadd, .memSeg o => some (.aadd o)
  | .afadd, .memSeg o => some (.afadd o)
  | .amin, .memSeg o => some (.amin o)
  | .amax, .memSeg o => some (.amax o)
  | .aminu, .memSeg o => some (.aminu o)
  | .amaxu, .memSeg o => some (.amaxu o)
  | .aand, .memSeg o => some (.aand o)
  | .aor, .memSeg o => some (.aor o)
  | .axor, .memSeg o => some (.axor o)
  | .axch, .memSeg o => some (.axch o)
  | .acas, .memSeg o => some (.acas o)
  | .aadd64, .memSeg o => some (.aadd64 o)
  | .axch64, .memSeg o => some (.axch64 o)
  | .acas64, .memSeg o => some (.acas64 o)
  | .fence, .fence o => some (.fence o)
  | .lacq, .memAcq o => some (.lacq o)
  | .srel, .memAcq o => some (.srel o)
  | .binit, .memSeg o => some (.binit o)
  | .bbind, .memSeg o => some (.bbind o)
  | .btx, .memSeg o => some (.btx o)
  | .vact, .vaultRow o => some (.vact o)
  | .vpre, .vaultRow o => some (.vpre o)
  | .vref, .vaultRef o => some (.vref o)
  | .vld, .vaultCol o => some (.vld o)
  | .vst, .vaultCol o => some (.vst o)
  | .vldr, .memFar o => some (.vldr o)
  | .vstr, .memFar o => some (.vstr o)
  | .lfd, .memFar o => some (.lfd o)
  | .sfd, .memFar o => some (.sfd o)
  | .mma, .mx o => some (.mma o)
  | .mmaz, .mx o => some (.mmaz o)
  | .mmag, .mx o => some (.mmag o)
  | .mzero, .mx o => some (.mzero o)
  | .mdrain, .mx o => some (.mdrain o)
  | .mshape, .mx o => some (.mshape o)
  | .mwin, .mx o => some (.mwin o)
  | .mmaw, .mx o => some (.mmaw o)
  | .mload, .mx o => some (.mload o)
  | .zld, .zs o => some (.zld o)
  | .zadd, .zs o => some (.zadd o)
  | .zset, .zs o => some (.zset o)
  | .copy, .sh o => some (.copy o)
  | .mcast, .sh o => some (.mcast o)
  | .reduce, .sh o => some (.reduce o)
  | .post, .sh o => some (.post o)
  | .recall, .sh o => some (.recallSeg o)
  | .pushout, .sh o => some (.pushout o)
  | .fill, .sh o => some (.fill o)
  | .gthr, .sh o => some (.gthr o)
  | .sctr, .sh o => some (.sctr o)
  | .vxfer, .sh o => some (.vxfer o)
  | .copyb, .sh o => some (.copyb o)
  | .jcfg, .jq o => some (.jcfg o)
  | .jord, .jq o => some (.jord o)
  | .jvar, .jq o => some (.jvar o)
  | .jmk, .jq o => some (.jmk o)
  | .japp, .jq o => some (.japp o)
  | .jite, .jq o => some (.jite o)
  | .jres, .jq o => some (.jres o)
  | .jexq, .jq o => some (.jexq o)
  | .jcnt, .jq o => some (.jcnt o)
  | .jsat, .jq o => some (.jsat o)
  | .jexp, .jq o => some (.jexp o)
  | .jref, .jq o => some (.jref o)
  | .jdrf, .jq o => some (.jdrf o)
  | .jgc, .jq o => some (.jgc o)
  | .jstat, .jq o => some (.jstat o)
  | .jclr, .jq o => some (.jclr o)
  | _, _ => none

/-- The lowest of a list of codes. -/
def lowestCode (l : List Nat) : Option Nat :=
  l.foldl (fun m c => some (match m with | some x => min x c | none => c)) none

/-- A field that the instruction gives as zero is nonzero, or a lent bit that it does not use (0x105, Table 23.2). In cf,
bit 31 is H and has a code of its own. -/
def zeroFieldFault (lane : Lane) (s : Slot) (w : Word) (l : Option (BitVec 10)) : Bool :=
  (s.word != if lane = .cf then w &&& 0x7FFFFFFF#32 else w)
  || (match l with | some l => l != lentField s.o | none => false)

/-- Every fault of one slot that its bits decide. -/
def slotCodes (lane : Lane) (s : Slot) (w : Word) (l : Option (BitVec 10)) : List Nat :=
  codeIf (zeroFieldFault lane s w l) 0x105
  ++ codeIf (lane = .cf && hBit w) 0x107
  ++ s.faults

/-- A binary64 opcode with I = 1 is 0x10F (Table 23.2). -/
def isBadBinary64 (lane : Lane) (w : Word) : Bool :=
  (lane = .sa || lane = .sb) && iBit w && 0x25 ≤ (opField w).toNat && (opField w).toNat ≤ 0x30

/-- One slot, checked: its operation and operands, or the lowest code of Table 23.2 (R326). -/
def checkSlot (lane : Lane) (w : Word) (l : Option (BitVec 10)) : Except Nat Slot :=
  if opField w = 0#6 then
    if w = 1#32 && lent0 l = 0#10 then .ok ⟨.nop, .bare⟩ else .error 0x105
  else if isBadBinary64 lane w then .error (if lent0 l = 0#10 then 0x10F else 0x105)
  else
    match readSlot lane w l with
    | none => .error 0x106
    | some s =>
      match lowestCode (slotCodes lane s w l) with
      | some c => .error c
      | none => .ok s

/-- One slot, decoded. A checked slot always has an instruction; 0x106 stands where it had none. -/
noncomputable def decodeSlot (lane : Lane) (w : Word) (l : Option (BitVec 10)) : Except Nat Instr :=
  match checkSlot lane w l with
  | .error c => .error c
  | .ok s =>
    match s.instr with
    | some i => .ok i
    | none => .error 0x106

/-! ## A pick (R110 to R113) -/

/-- QLEN, STOP, LEND and PRES of a header (Table 7.1). -/
def headerQlen (h : Word) : Nat := (fld h 30 2).toNat
def headerStop (h : Word) : Bool := bit h 29
def headerLend (h : Word) (k : Nat) : Bool := bit h (25 + k)
def headerPres (h : Word) : List Lane := allLanes.filter (fun l => bit h (12 + l.index))

/-- One word that a pick gives to a lane, with its lent bits where a lend slot serves it. -/
structure RawSlot where
  word : Word
  lent : Option (BitVec 10)
deriving DecidableEq, Repr

/-- Is position p a lend slot (R111)? -/
def isLendPosition (h : Word) (p : Nat) : Bool := p % 4 = 0 && p / 4 ≥ 1 && headerLend h (p / 4)
/-- The ten bits lent to position p (Table 7.2), where its quad has a lend slot. -/
def lentAt (ws : List Word) (p : Nat) : Option (BitVec 10) :=
  match ws with
  | [] => none
  | h :: _ =>
    if p / 4 ≥ 1 && headerLend h (p / 4) && p % 4 ≠ 0 then
      some ((ws.getD (4 * (p / 4)) 0#32).extractLsb' (10 * (p % 4) - 10) 10)
    else none
/-- The operation slots of a pick, in position order (R111). -/
def rawSlots (ws : List Word) : List RawSlot :=
  (List.range (ws.length - 1)).filterMap (fun k =>
    let p := k + 1
    let w := ws.getD p 0#32
    if isLendPosition (ws.headD 0#32) p || w = 0#32 then none else some ⟨w, lentAt ws p⟩)

/-- The pick faults of Table 23.1, tested in its order; the words are those of the quads that QLEN gives. -/
def pickFault (ws : List Word) : Option Nat :=
  let h := ws.headD 0#32
  if fld h 0 12 ≠ 0#12 then some 0x101
  else if [1, 2, 3].any (fun k => headerLend h k && headerQlen h < k) then some 0x102
  else if (List.range ws.length).any (fun p =>
      (isLendPosition h p && fld (ws.getD p 0#32) 30 2 ≠ 0#2)
      || (!isLendPosition h p && ws.getD p 0#32 = 0#32 && p ≠ 0 && lent0 (lentAt ws p) ≠ 0#10)) then some 0x104
  else if (rawSlots ws).length ≠ (headerPres h).length then some 0x103
  else none

/-- The lanes of a pick with their slots (R111). -/
def pickSlots (ws : List Word) : List (Lane × RawSlot) := (headerPres (ws.headD 0#32)).zip (rawSlots ws)

/-- The pick that holds one slot in one lane, and ends its group: the layout of R129, a lend slot only where one is
needed. -/
def pickOfSlot (lane : Lane) (w : Word) (l : Option (BitVec 10)) : List Word :=
  match l with
  | none => [0x20000000#32 ||| (1#32 <<< (12 + lane.index)), w, 0#32, 0#32]
  | some l => [0x64000000#32 ||| (1#32 <<< (12 + lane.index)), 0#32, 0#32, 0#32, l.zeroExtend 32, w, 0#32, 0#32]

/-- The words of a pick that holds one instruction. -/
def encode (lane : Lane) (i : Instr) : List Word := pickOfSlot lane (encodeWord i) (encodeLent i)

/-! ## The opcode table's words

One word can stand for operations of several lanes. Among the opcode table's rows that a word without a lane matches
and whose lane decodes it, the word is read in the lane of the row that leaves the fewest of its ones to operands, and
on a tie of the row that fixes the most bits (log 14). -/

/-- A row of the table: mask, match and the first lane of its operation. -/
structure TableRow where
  mask : Word
  pattern : Word
  lane : Lane
deriving DecidableEq, Repr

/-- Rows of the opcode table, those with the most fixed bits first, part 0. -/
def tableRows0 : List TableRow := [
  ⟨0xFFFFFFFF#32, 0x00000001#32, .cf⟩,
  ⟨0xFFFFFFFF#32, 0x0A000000#32, .cf⟩,
  ⟨0xFFFFFFFF#32, 0x10000000#32, .cf⟩,
  ⟨0xFFFFFFFF#32, 0x1E000000#32, .cf⟩,
  ⟨0xFFFFFFFF#32, 0x24000000#32, .cf⟩,
  ⟨0x7E3FFFFF#32, 0x04000000#32, .zs⟩,
  ⟨0xFE07FFFF#32, 0x06000000#32, .cf⟩,
  ⟨0xFE07FFFF#32, 0x08000000#32, .cf⟩,
  ⟨0xFE07FFFF#32, 0x26000000#32, .cf⟩,
  ⟨0xFE07FFFF#32, 0x28000000#32, .cf⟩,
  ⟨0xFE07FFFF#32, 0x2A000000#32, .cf⟩,
  ⟨0xFE07FFFF#32, 0x2C000000#32, .cf⟩,
  ⟨0x7E07FFFF#32, 0x6E000000#32, .sa⟩,
  ⟨0x7E07FFFF#32, 0x70000000#32, .sa⟩,
  ⟨0xFE01FFFF#32, 0x1A000000#32, .cf⟩,
  ⟨0xFFFFFF00#32, 0x20000000#32, .cf⟩,
  ⟨0xFE01FFFF#32, 0x30000000#32, .cf⟩,
  ⟨0x7E3FFFF0#32, 0x08000000#32, .mx⟩,
  ⟨0xFE7FFF00#32, 0x0E000000#32, .cf⟩,
  ⟨0xFE07FF0F#32, 0x12000000#32, .cf⟩,
  ⟨0x7E0FFFF0#32, 0x56000000#32, .ma⟩,
  ⟨0x7E00FFFF#32, 0x06000000#32, .zs⟩,
  ⟨0x7E07FFF8#32, 0x04000000#32, .jq⟩,
  ⟨0x7E07FFF8#32, 0x1C000000#32, .jq⟩,
  ⟨0x7E07FFF8#32, 0x20000000#32, .jq⟩,
  ⟨0xFE001FFF#32, 0x16001000#32, .cf⟩,
  ⟨0xFE001FFF#32, 0x32000000#32, .cf⟩,
  ⟨0xFE001FFF#32, 0x34000000#32, .cf⟩,
  ⟨0xFE001FFF#32, 0x36000000#32, .cf⟩,
  ⟨0x7E707FF0#32, 0x54000000#32, .va⟩,
  ⟨0x7E001FFF#32, 0x3E000000#32, .sa⟩,
  ⟨0x7E001FFF#32, 0x40000000#32, .sa⟩,
  ⟨0x7E001FFF#32, 0x42000000#32, .sa⟩,
  ⟨0x7E001FFF#32, 0x5C000000#32, .sa⟩,
  ⟨0x7E001FFF#32, 0x5E000000#32, .sa⟩,
  ⟨0x7E001FFF#32, 0x60000000#32, .sa⟩,
  ⟨0x7E07F03F#32, 0x66000000#32, .sa⟩,
  ⟨0x7E07F03F#32, 0x6A000000#32, .sa⟩,
  ⟨0x7E01FFF0#32, 0x58000000#32, .ma⟩,
  ⟨0x7FFF000F#32, 0x0C000000#32, .mx⟩]

/-- Rows of the opcode table, those with the most fixed bits first, part 1. -/
def tableRows1 : List TableRow := [
  ⟨0x7FFF000F#32, 0x0E000000#32, .mx⟩,
  ⟨0xFE07FF00#32, 0x0C000000#32, .cf⟩,
  ⟨0xFFFC000F#32, 0x12040000#32, .cf⟩,
  ⟨0xFE01F03F#32, 0x16000000#32, .cf⟩,
  ⟨0x7E07FF80#32, 0x0A000000#32, .sh⟩,
  ⟨0x7E07FF80#32, 0x0C000000#32, .sh⟩,
  ⟨0x7E0003FF#32, 0x02000000#32, .zs⟩,
  ⟨0x7E001FF8#32, 0x06000000#32, .jq⟩,
  ⟨0x7E001FF8#32, 0x12000000#32, .jq⟩,
  ⟨0x7E001FF8#32, 0x18000000#32, .jq⟩,
  ⟨0x7E001FF8#32, 0x1A000000#32, .jq⟩,
  ⟨0x7E001FF8#32, 0x1E000000#32, .jq⟩,
  ⟨0xFFFC0000#32, 0x04000000#32, .cf⟩,
  ⟨0xFFFC0000#32, 0x0C040000#32, .cf⟩,
  ⟨0xFE001FC0#32, 0x18001000#32, .cf⟩,
  ⟨0x7E7000F8#32, 0x5C000000#32, .va⟩,
  ⟨0x7E7000F8#32, 0x5E000000#32, .va⟩,
  ⟨0x7E000FF0#32, 0x54000000#32, .ma⟩,
  ⟨0x7E03FC00#32, 0x5E000000#32, .ma⟩,
  ⟨0x7E03FC00#32, 0x60000000#32, .ma⟩,
  ⟨0x7E03FC00#32, 0x62000000#32, .ma⟩,
  ⟨0x7E03FC00#32, 0x64000000#32, .ma⟩,
  ⟨0x7E00103F#32, 0x02000000#32, .sa⟩,
  ⟨0x7E00103F#32, 0x04000000#32, .sa⟩,
  ⟨0x7E00103F#32, 0x06000000#32, .sa⟩,
  ⟨0x7E00103F#32, 0x08000000#32, .sa⟩,
  ⟨0x7E00103F#32, 0x0A000000#32, .sa⟩,
  ⟨0x7E00103F#32, 0x0C000000#32, .sa⟩,
  ⟨0x7E00103F#32, 0x0E000000#32, .sa⟩,
  ⟨0x7E00103F#32, 0x10000000#32, .sa⟩,
  ⟨0x7E00103F#32, 0x12000000#32, .sa⟩,
  ⟨0x7E00103F#32, 0x14000000#32, .sa⟩,
  ⟨0x7E00103F#32, 0x16000000#32, .sa⟩,
  ⟨0x7E00103F#32, 0x18000000#32, .sa⟩,
  ⟨0x7E00103F#32, 0x1A000000#32, .sa⟩,
  ⟨0x7E00103F#32, 0x1C000000#32, .sa⟩,
  ⟨0x7E00103F#32, 0x1E000000#32, .sa⟩,
  ⟨0x7E00103F#32, 0x20000000#32, .sa⟩,
  ⟨0x7E00103F#32, 0x22000000#32, .sa⟩,
  ⟨0x7E00103F#32, 0x24000000#32, .sa⟩]

/-- Rows of the opcode table, those with the most fixed bits first, part 2. -/
def tableRows2 : List TableRow := [
  ⟨0x7E00103F#32, 0x26000000#32, .sa⟩,
  ⟨0x7E00103F#32, 0x28000000#32, .sa⟩,
  ⟨0x7E00103F#32, 0x2A000000#32, .sa⟩,
  ⟨0x7E00103F#32, 0x2C000000#32, .sa⟩,
  ⟨0x7E00103F#32, 0x2E000000#32, .sa⟩,
  ⟨0x7E00103F#32, 0x30000000#32, .sa⟩,
  ⟨0x7E00103F#32, 0x32000000#32, .sa⟩,
  ⟨0x7E00103F#32, 0x34000000#32, .sa⟩,
  ⟨0x7E00103F#32, 0x36000000#32, .sa⟩,
  ⟨0x7E00103F#32, 0x38000000#32, .sa⟩,
  ⟨0x7E07F000#32, 0x3A001000#32, .sa⟩,
  ⟨0x7E07F000#32, 0x3C001000#32, .sa⟩,
  ⟨0x7E00103F#32, 0x44000000#32, .sa⟩,
  ⟨0x7E00103F#32, 0x46000000#32, .sa⟩,
  ⟨0x7E00103F#32, 0x48000000#32, .sa⟩,
  ⟨0x7E00103F#32, 0x4A000000#32, .sa⟩,
  ⟨0x7E00103F#32, 0x4C000000#32, .sa⟩,
  ⟨0x7E00103F#32, 0x4E000000#32, .sa⟩,
  ⟨0x7E00103F#32, 0x50000000#32, .sa⟩,
  ⟨0x7E00103F#32, 0x52000000#32, .sa⟩,
  ⟨0x7E00103F#32, 0x54000000#32, .sa⟩,
  ⟨0x7E00103F#32, 0x56000000#32, .sa⟩,
  ⟨0x7E00103F#32, 0x58000000#32, .sa⟩,
  ⟨0x7E00103F#32, 0x5A000000#32, .sa⟩,
  ⟨0x7E07F000#32, 0x62001000#32, .sa⟩,
  ⟨0x7FF81000#32, 0x64001000#32, .sa⟩,
  ⟨0x7E07F000#32, 0x66001000#32, .sa⟩,
  ⟨0x7E07F000#32, 0x68001000#32, .sa⟩,
  ⟨0x7E07F000#32, 0x6A001000#32, .sa⟩,
  ⟨0x7E07F000#32, 0x6C001000#32, .sa⟩,
  ⟨0x7E007F00#32, 0x3A000000#32, .va⟩,
  ⟨0x7E0F80C0#32, 0x4E000000#32, .va⟩,
  ⟨0x7E00007F#32, 0x02000000#32, .fn⟩,
  ⟨0x7E00007F#32, 0x04000000#32, .fn⟩,
  ⟨0x7E00007F#32, 0x06000000#32, .fn⟩,
  ⟨0x7E00007F#32, 0x0A000000#32, .fn⟩,
  ⟨0x7E00007F#32, 0x0C000000#32, .fn⟩,
  ⟨0x7E00007F#32, 0x0E000000#32, .fn⟩,
  ⟨0x7E00007F#32, 0x10000000#32, .fn⟩,
  ⟨0x7E00007F#32, 0x12000000#32, .fn⟩]

/-- Rows of the opcode table, those with the most fixed bits first, part 3. -/
def tableRows3 : List TableRow := [
  ⟨0x7E00007F#32, 0x14000000#32, .fn⟩,
  ⟨0x7E00007F#32, 0x16000000#32, .fn⟩,
  ⟨0x7E00007F#32, 0x18000000#32, .fn⟩,
  ⟨0x7E00007F#32, 0x1A000000#32, .fn⟩,
  ⟨0xFE01F000#32, 0x18000000#32, .cf⟩,
  ⟨0x7E0040F8#32, 0x38000000#32, .va⟩,
  ⟨0x7E00003F#32, 0x08000000#32, .so⟩,
  ⟨0x7E00003F#32, 0x0A000000#32, .so⟩,
  ⟨0x7E00FC00#32, 0x10000000#32, .mx⟩,
  ⟨0x7E0000F8#32, 0x0E000000#32, .va⟩,
  ⟨0x7E0000F8#32, 0x10000000#32, .va⟩,
  ⟨0x7E0000F8#32, 0x36000000#32, .va⟩,
  ⟨0x7E0000F8#32, 0x60000000#32, .va⟩,
  ⟨0x7E0000F8#32, 0x62000000#32, .va⟩,
  ⟨0x7E00000F#32, 0x48000000#32, .ma⟩,
  ⟨0x7E000078#32, 0x02000000#32, .jq⟩,
  ⟨0x7E000078#32, 0x08000000#32, .jq⟩,
  ⟨0x7E000078#32, 0x0C000000#32, .jq⟩,
  ⟨0x7E000078#32, 0x0E000000#32, .jq⟩,
  ⟨0x7E000078#32, 0x14000000#32, .jq⟩,
  ⟨0x7E000078#32, 0x16000000#32, .jq⟩,
  ⟨0x7E700000#32, 0x30500000#32, .va⟩,
  ⟨0x7E0000E0#32, 0x4C000000#32, .va⟩,
  ⟨0x7E700000#32, 0x56000000#32, .va⟩,
  ⟨0x7E700000#32, 0x58000000#32, .va⟩,
  ⟨0x7E700000#32, 0x5A000000#32, .va⟩,
  ⟨0x7E070000#32, 0x0A000000#32, .mx⟩,
  ⟨0x7E070000#32, 0x12000000#32, .mx⟩,
  ⟨0xFE000001#32, 0x14000000#32, .cf⟩,
  ⟨0xFF000000#32, 0x22000000#32, .cf⟩,
  ⟨0x7E0000C0#32, 0x48000000#32, .va⟩,
  ⟨0x7E0000C0#32, 0x50000000#32, .va⟩,
  ⟨0x7E0000C0#32, 0x52000000#32, .va⟩,
  ⟨0x7E001000#32, 0x02001000#32, .sa⟩,
  ⟨0x7E001000#32, 0x04001000#32, .sa⟩,
  ⟨0x7E001000#32, 0x06001000#32, .sa⟩,
  ⟨0x7E001000#32, 0x08001000#32, .sa⟩,
  ⟨0x7E001000#32, 0x0A001000#32, .sa⟩,
  ⟨0x7E001000#32, 0x0C001000#32, .sa⟩,
  ⟨0x7E001000#32, 0x0E001000#32, .sa⟩]

/-- Rows of the opcode table, those with the most fixed bits first, part 4. -/
def tableRows4 : List TableRow := [
  ⟨0x7E001000#32, 0x10001000#32, .sa⟩,
  ⟨0x7E001000#32, 0x12001000#32, .sa⟩,
  ⟨0x7E001000#32, 0x14001000#32, .sa⟩,
  ⟨0x7E001000#32, 0x16001000#32, .sa⟩,
  ⟨0x7E001000#32, 0x18001000#32, .sa⟩,
  ⟨0x7E001000#32, 0x1A001000#32, .sa⟩,
  ⟨0x7E001000#32, 0x1C001000#32, .sa⟩,
  ⟨0x7E001000#32, 0x1E001000#32, .sa⟩,
  ⟨0x7E001000#32, 0x20001000#32, .sa⟩,
  ⟨0x7E001000#32, 0x22001000#32, .sa⟩,
  ⟨0x7E001000#32, 0x24001000#32, .sa⟩,
  ⟨0x7E001000#32, 0x26001000#32, .sa⟩,
  ⟨0x7E001000#32, 0x28001000#32, .sa⟩,
  ⟨0x7E001000#32, 0x2A001000#32, .sa⟩,
  ⟨0x7E001000#32, 0x2C001000#32, .sa⟩,
  ⟨0x7E001000#32, 0x2E001000#32, .sa⟩,
  ⟨0x7E001000#32, 0x30001000#32, .sa⟩,
  ⟨0x7E001000#32, 0x32001000#32, .sa⟩,
  ⟨0x7E001000#32, 0x34001000#32, .sa⟩,
  ⟨0x7E001000#32, 0x36001000#32, .sa⟩,
  ⟨0x7E001000#32, 0x38001000#32, .sa⟩,
  ⟨0x7E001000#32, 0x44001000#32, .sa⟩,
  ⟨0x7E001000#32, 0x46001000#32, .sa⟩,
  ⟨0x7E001000#32, 0x48001000#32, .sa⟩,
  ⟨0xFE000000#32, 0x02000000#32, .cf⟩,
  ⟨0xFE000000#32, 0x1C000000#32, .cf⟩,
  ⟨0xFE000000#32, 0x2E000000#32, .cf⟩,
  ⟨0x7E004000#32, 0x46000000#32, .va⟩,
  ⟨0x7E000010#32, 0x5A000000#32, .ma⟩,
  ⟨0x7E000010#32, 0x5C000000#32, .ma⟩,
  ⟨0x7E000000#32, 0x02000000#32, .va⟩,
  ⟨0x7E000000#32, 0x04000000#32, .va⟩,
  ⟨0x7E000000#32, 0x06000000#32, .va⟩,
  ⟨0x7E000000#32, 0x08000000#32, .va⟩,
  ⟨0x7E000000#32, 0x0A000000#32, .va⟩,
  ⟨0x7E000000#32, 0x0C000000#32, .va⟩,
  ⟨0x7E000000#32, 0x12000000#32, .va⟩,
  ⟨0x7E000000#32, 0x14000000#32, .va⟩,
  ⟨0x7E000000#32, 0x16000000#32, .va⟩,
  ⟨0x7E000000#32, 0x18000000#32, .va⟩]

/-- Rows of the opcode table, those with the most fixed bits first, part 5. -/
def tableRows5 : List TableRow := [
  ⟨0x7E000000#32, 0x1A000000#32, .va⟩,
  ⟨0x7E000000#32, 0x1C000000#32, .va⟩,
  ⟨0x7E000000#32, 0x1E000000#32, .va⟩,
  ⟨0x7E000000#32, 0x20000000#32, .va⟩,
  ⟨0x7E000000#32, 0x22000000#32, .va⟩,
  ⟨0x7E000000#32, 0x24000000#32, .va⟩,
  ⟨0x7E000000#32, 0x26000000#32, .va⟩,
  ⟨0x7E000000#32, 0x28000000#32, .va⟩,
  ⟨0x7E000000#32, 0x2A000000#32, .va⟩,
  ⟨0x7E000000#32, 0x2C000000#32, .va⟩,
  ⟨0x7E000000#32, 0x2E000000#32, .va⟩,
  ⟨0x7E000000#32, 0x32000000#32, .va⟩,
  ⟨0x7E000000#32, 0x34000000#32, .va⟩,
  ⟨0x7E000000#32, 0x3C000000#32, .va⟩,
  ⟨0x7E000000#32, 0x3E000000#32, .va⟩,
  ⟨0x7E000000#32, 0x40000000#32, .va⟩,
  ⟨0x7E000000#32, 0x42000000#32, .va⟩,
  ⟨0x7E000000#32, 0x44000000#32, .va⟩,
  ⟨0x7E000000#32, 0x4A000000#32, .va⟩,
  ⟨0x7E000000#32, 0x08000000#32, .fn⟩,
  ⟨0x7E000000#32, 0x02000000#32, .so⟩,
  ⟨0x7E000000#32, 0x04000000#32, .so⟩,
  ⟨0x7E000000#32, 0x06000000#32, .so⟩,
  ⟨0x7E000000#32, 0x02000000#32, .ma⟩,
  ⟨0x7E000000#32, 0x04000000#32, .ma⟩,
  ⟨0x7E000000#32, 0x06000000#32, .ma⟩,
  ⟨0x7E000000#32, 0x08000000#32, .ma⟩,
  ⟨0x7E000000#32, 0x0A000000#32, .ma⟩,
  ⟨0x7E000000#32, 0x0C000000#32, .ma⟩,
  ⟨0x7E000000#32, 0x0E000000#32, .ma⟩,
  ⟨0x7E000000#32, 0x10000000#32, .ma⟩,
  ⟨0x7E000000#32, 0x12000000#32, .ma⟩,
  ⟨0x7E000000#32, 0x14000000#32, .ma⟩,
  ⟨0x7E000000#32, 0x16000000#32, .ma⟩,
  ⟨0x7E000000#32, 0x18000000#32, .ma⟩,
  ⟨0x7E000000#32, 0x1A000000#32, .ma⟩,
  ⟨0x7E000000#32, 0x1C000000#32, .ma⟩,
  ⟨0x7E000000#32, 0x1E000000#32, .ma⟩,
  ⟨0x7E000000#32, 0x20000000#32, .ma⟩,
  ⟨0x7E000000#32, 0x22000000#32, .ma⟩]

/-- Rows of the opcode table, those with the most fixed bits first, part 6. -/
def tableRows6 : List TableRow := [
  ⟨0x7E000000#32, 0x24000000#32, .ma⟩,
  ⟨0x7E000000#32, 0x26000000#32, .ma⟩,
  ⟨0x7E000000#32, 0x28000000#32, .ma⟩,
  ⟨0x7E000000#32, 0x2A000000#32, .ma⟩,
  ⟨0x7E000000#32, 0x2C000000#32, .ma⟩,
  ⟨0x7E000000#32, 0x2E000000#32, .ma⟩,
  ⟨0x7E000000#32, 0x30000000#32, .ma⟩,
  ⟨0x7E000000#32, 0x32000000#32, .ma⟩,
  ⟨0x7E000000#32, 0x34000000#32, .ma⟩,
  ⟨0x7E000000#32, 0x36000000#32, .ma⟩,
  ⟨0x7E000000#32, 0x38000000#32, .ma⟩,
  ⟨0x7E000000#32, 0x3A000000#32, .ma⟩,
  ⟨0x7E000000#32, 0x3C000000#32, .ma⟩,
  ⟨0x7E000000#32, 0x3E000000#32, .ma⟩,
  ⟨0x7E000000#32, 0x40000000#32, .ma⟩,
  ⟨0x7E000000#32, 0x42000000#32, .ma⟩,
  ⟨0x7E000000#32, 0x44000000#32, .ma⟩,
  ⟨0x7E000000#32, 0x46000000#32, .ma⟩,
  ⟨0x7E000000#32, 0x4A000000#32, .ma⟩,
  ⟨0x7E000000#32, 0x4C000000#32, .ma⟩,
  ⟨0x7E000000#32, 0x4E000000#32, .ma⟩,
  ⟨0x7E000000#32, 0x50000000#32, .ma⟩,
  ⟨0x7E000000#32, 0x52000000#32, .ma⟩,
  ⟨0x7E000000#32, 0x02000000#32, .mx⟩,
  ⟨0x7E000000#32, 0x04000000#32, .mx⟩,
  ⟨0x7E000000#32, 0x06000000#32, .mx⟩,
  ⟨0x7E000000#32, 0x02000000#32, .sh⟩,
  ⟨0x7E000000#32, 0x04000000#32, .sh⟩,
  ⟨0x7E000000#32, 0x06000000#32, .sh⟩,
  ⟨0x7E000000#32, 0x08000000#32, .sh⟩,
  ⟨0x7E000000#32, 0x0E000000#32, .sh⟩,
  ⟨0x7E000000#32, 0x10000000#32, .sh⟩,
  ⟨0x7E000000#32, 0x12000000#32, .sh⟩,
  ⟨0x7E000000#32, 0x14000000#32, .sh⟩,
  ⟨0x7E000000#32, 0x16000000#32, .sh⟩,
  ⟨0x7E000000#32, 0x0A000000#32, .jq⟩,
  ⟨0x7E000000#32, 0x10000000#32, .jq⟩]

/-- Every slot row of the opcode table. -/
def tableRows : List TableRow :=
  tableRows0 ++ tableRows1 ++ tableRows2 ++ tableRows3 ++ tableRows4 ++ tableRows5 ++ tableRows6

/-- Is the word a legal slot of the lane? -/
def legalIn (lane : Lane) (w : Word) : Bool :=
  match checkSlot lane w none with
  | .ok _ => true
  | .error _ => false

/-- How many of the word's ones the row leaves to the operands. -/
def TableRow.operandOnes (r : TableRow) (w : Word) : Nat :=
  (List.range 32).countP (fun n => (w &&& ~~~r.mask).getLsbD n)

/-- The better of two readings of a word: fewer ones left to the operands, the earlier row on a tie. -/
def betterRow (w : Word) (best : Option TableRow) (r : TableRow) : Option TableRow :=
  match best with
  | none => some r
  | some b => if r.operandOnes w < b.operandOnes w then some r else some b

/-- The lane in which a word is read when none is given. -/
def tableLane (w : Word) : Option Lane :=
  ((tableRows.filter (fun r => w &&& r.mask == r.pattern && legalIn r.lane w)).foldl (betterRow w) none).map (·.lane)

/-- The instruction the decoder reads from a slot word numbered as the opcode table numbers it. A slot word is 32 bits
and carries no lane; a word of another size is none. -/
noncomputable def decodeTableWord (nbits w : Nat) : Option Instr :=
  if nbits ≤ 32 then
    match tableLane (BitVec.ofNat 32 (w % 2 ^ nbits)) with
    | none => none
    | some lane =>
      match decodeSlot lane (BitVec.ofNat 32 (w % 2 ^ nbits)) none with
      | .ok i => some i
      | .error _ => none
  else none

end Sys2Proof
end

