-- ==== Sys2Proof/Machine/Image.lean ====
section
/-!
DEFINITION. An image as a launch places it: the looms of its loomsets (R282), the window entries and the relocations that the
runtime applies at launch (R84, R145, R147), the segments that its picks name (R48, R64), and where a launch's spill space lies
(R47).
-/

namespace Sys2Proof.Machine

/-! ## Looms (R282, Table 9.6) -/

/-- Bits set in a mask. -/
def popcount16 (m : BitVec 16) : Nat := (List.range 16).countP (fun k => m.getLsbD k)
/-- The clusters of a loomset: places in the partition. -/
def LoomsetRec.places (r : LoomsetRec) (place : Nat) : List Nat := (List.range r.count).map (fun i => place + r.first + i)
/-- The looms of a loomset in rank order, each with its device number (R282, Table 9.6). -/
def LoomsetRec.looms (r : LoomsetRec) (partition : List Nat) (place : Nat) : List Nat :=
  (r.places place).flatMap (fun k =>
    ((List.range 16).filter (fun j => r.mask.getLsbD j)).map (fun j => 16 * partition.getD k 0 + j))
/-- Every loom of a launch, with its loomset and its rank. -/
def Image.looms (img : Image) (partition : List Nat) (place : Nat) : List (Nat × Nat × Nat) :=
  img.loomsets.zipIdx.flatMap (fun p => (p.1.looms partition place).zipIdx.map (fun q => (q.1, p.2, q.2)))
/-- Sequencer records of a loomset. -/
def Image.seqsOf (img : Image) (i : Nat) : List SeqRec := img.seqs.filter (fun r => r.loomset = i)
/-- Segments of a loomset. -/
def Image.segsOf (img : Image) (i : Nat) : List SegDecl := img.segs.filter (fun g => g.loomset = i)
/-- The looms on which a waiting launch is to run. -/
def State.plannedLooms (s : State) (x : Launch) : List Nat :=
  match Tab.find? (s.tenancy x.tenancy).images x.image with
  | some img => (img.looms (s.tenancy x.tenancy).partition x.place).map (·.1)
  | none => []

/-! ## Windows and relocations (R84, R145) -/

/-- A window table with entries loaded into it: those of other indexes stay, and where the table is locked every one that stands. -/
def putWindows (locked : Bool) (table entries : Tab (BitVec 128)) : Tab (BitVec 128) :=
  entries.foldl (fun (m : Tab (BitVec 128)) (p : Nat × BitVec 128) =>
    if locked && (Tab.find? table p.1).isSome then m else Tab.put m p.1 p.2) table
/-- Is a tenancy's window table locked: runs a launch of it (R84, R376)? -/
def State.windowsLocked (s : State) (t : Nat) : Bool :=
  s.launches.any (fun p => p.2.tenancy = t && (p.2.phase = .running || p.2.phase = .ending))
/-- The runtime loads an image's window entries into its tenancy's table. DESIGN CHOICE (log 44): while a launch of the tenancy runs the
entries that stand are locked, and only those of other indexes are added. -/
def State.loadWindows (s : State) (t : Nat) (img : Image) : State :=
  s.updTenancy t (fun x => { x with windows := putWindows (s.windowsLocked t) x.windows img.windows })
/-- The looms that a relocation's site reaches. -/
def Image.siteLooms (img : Image) (partition : List Nat) (place : Nat) (x : Reloc) : List Nat :=
  match x.site with
  | .picks _ => (img.looms partition place).map (·.1)
  | .segment i _ _ => (img.loomsets[i]?).elim [] (fun r => r.looms partition place)
  | .args k _ => (img.seqs[k]?).elim [] (fun q => (img.loomsets[q.loomset]?).elim [] (fun r => r.looms partition place))
/-- Bits 23:0 of the location word that a VLOC makes of a bank, an offset and an addend, which may carry into
the next shared bank. -/
def vlocLow (bank off addend : Nat) : Nat := bank * 2 ^ 21 + off + addend
/-- Is a relocation refused (Table 23.7, 0xA28)? Where its site lies in picks or arguments of several looms, it is when the owner is
neither of them nor a grid neighbour for any one of them (DESIGN CHOICE, log 68). -/
def Reloc.bad (x : Reloc) (windows : Tab (BitVec 128)) (looms : List Nat) : Bool :=
  match x.target with
  | .window i => 4095 < i || winKind (Tab.get windows i 0#128) = 0
  | .shared p bank off => 16 ≤ p || 2 ^ 24 ≤ vlocLow bank off x.addend ||
      looms.any (fun l => placeOf l ≠ p && !neighbours (16 * clusterOf l + p) l)
/-- Kinds 6 and 8: a 64-bit word with its window index in bits 62:51, or its location in bits 31:28 and 23:0 (Table 8.9). -/
def Reloc.patchWord (x : Reloc) (w : DWord) : DWord :=
  match x.target with
  | .window i => (w &&& ~~~0x7FF8000000000000#64) ||| (BitVec.ofNat 64 i <<< 51)
  | .shared p bank off => (w &&& ~~~0xF0FFFFFF#64) ||| BitVec.ofNat 64 (p * 2 ^ 28 + vlocLow bank off x.addend)
/-- Kind 7: bits 14:3 of the value of a movk; bits 14:12 of it lie in the lend slot of the quad (R111). -/
def patchMovk (picks : Tab Word) (k i : Nat) : Tab Word :=
  let at_ := fun (j : Nat) => Tab.get picks j 0#32
  let lent := 10 * (k % 4) - 10
  let t := Tab.set picks k ((at_ k &&& ~~~0xFF8#32) ||| BitVec.ofNat 32 (i % 512 * 8)) 0#32
  Tab.set t (k / 4 * 4) ((at_ (k / 4 * 4) &&& ~~~(7#32 <<< lent)) ||| (BitVec.ofNat 32 (i / 512) <<< lent)) 0#32
/-- Apply one relocation. -/
def Image.patch (img : Image) (x : Reloc) : Image :=
  match x.site with
  | .picks a =>
    let k := a / 4
    match x.movk, x.target with
    | true, .window i => { img with picks := patchMovk img.picks k i }
    | _, _ =>
      let w := x.patchWord (Tab.get img.picks (k + 1) 0#32 ++ Tab.get img.picks k 0#32)
      { img with picks := Tab.set (Tab.set img.picks k (w.extractLsb' 0 32) 0#32) (k + 1) (w.extractLsb' 32 32) 0#32 }
  | .segment i seg a =>
    let one := fun (m : Memory) => m.writeNat a 8 (x.patchWord (BitVec.ofNat 64 (m.readNat a 8))).toNat
    { img with segs := img.segs.map (fun g =>
        if g.loomset = i && g.seg = seg then { g with init := g.init.map one } else g) }
  | .args k i =>
    { img with seqs := img.seqs.mapIdx (fun j r =>
        if j = k then { r with args := r.args.mapIdx (fun m w => if m = i then x.patchWord w else w) } else r) }
/-- The image with every relocation applied. -/
def Image.relocated (img : Image) : Image := img.relocs.foldl Image.patch img

/-! ## What the picks name (R48, R64) -/

/-- The segment that a memory slot names. -/
def Slot.segNamed (x : Slot) : Option Nat :=
  match x.o with
  | .memSeg o => some o.seg.toNat
  | .memCross o => some o.seg.toNat
  | .memAcq o => some o.seg.toNat
  | _ => none
/-- The distinct segments that the memory slots of a pick name. -/
def segsNamed (ws : List Word) : List Nat :=
  ((pickSlots ws).filterMap (fun p =>
    if p.1 = .ma || p.1 = .mb then (readSlot p.1 p.2.word p.2.lent).bind Slot.segNamed else none)).eraseDups
/-- The words of the pick at an address of an image. -/
def Image.pickAt (img : Image) (a : Nat) : List Word :=
  (List.range (4 * (headerQlen (Tab.get img.picks (a / 4) 0#32) + 1))).map (fun i => Tab.get img.picks (a / 4 + i) 0#32)
/-- The sets of segments of an image's picks from an address on, n picks at most. -/
def Image.pickSets (img : Image) (n a : Nat) : List (List Nat) :=
  match n with
  | 0 => []
  | n + 1 =>
    if img.pickBytes ≤ a then []
    else segsNamed (img.pickAt a) :: Image.pickSets img n (a + 4 * (img.pickAt a).length)
/-- Granules of a segment in a term of R48: a tagged one counts twice (R64). -/
def SegDecl.granules (g : SegDecl) : Nat := if g.tagged then g.size / 64 * 2 else g.size / 64
/-- The largest combined size, in granules, of the segments that the memory slots of any one pick name on a loomset. -/
def Image.largestPick (img : Image) (i : Nat) : Nat :=
  let size := fun (seg : Nat) => ((img.segsOf i).find? (fun g => g.seg = seg)).elim 0 SegDecl.granules
  (img.pickSets (img.pickBytes / 16) 0).foldl (fun m set => max m (set.foldl (fun n seg => n + size seg) 0)) 0

/-! ## Spill space (R47) -/

/-- Bytes of one loom's region of a loomset's spill window. -/
def State.region (s : State) (t : Nat) (r : LoomsetRec) : Nat :=
  winRun (s.window t r.spillWindow) / (r.count * popcount16 r.mask) * 65536
/-- Bytes of a loom's spill banks 28 to 31. -/
def spillSpace : Nat := 8388608
/-- The shares that the launches placed on a loom hold: offset and bytes. -/
def Loom.spillShares (l : Loom) : List (Nat × Nat) :=
  (List.map (fun (p : Nat × LoomRun) => (p.2.spillBase, p.2.spillShare)) l.runs).filter (fun u => u.2 ≠ 0)
/-- The places at which a free run of a loom's spill banks may begin, from the lowest. -/
def Loom.spillStarts (l : Loom) : List Nat :=
  sortBy (fun (a b : Nat) => a ≤ b) (0 :: l.spillShares.map (fun u => u.1 + u.2))
/-- Bytes free from an offset of the spill banks on. -/
def Loom.spillRun (l : Loom) (a : Nat) : Nat :=
  l.spillShares.foldl (fun n u => if u.1 + u.2 ≤ a then n else min n (u.1 - a)) (spillSpace - a)
/-- The spill space left on a loom. A share has no gap: DESIGN CHOICE (log 44), the longest free run counts. -/
def Loom.spillLeft (l : Loom) : Nat := l.spillStarts.foldl (fun n a => max n (l.spillRun a)) 0
/-- The lowest free offset of a loom's banks 28 to 31 for a share. -/
def Loom.spillBase (l : Loom) (share : Nat) : Nat := (l.spillStarts.find? (fun a => share ≤ l.spillRun a)).getD 0
/-- A loomset record as the runtime fills it in when it places the launch: SPILLSHARE is the least of SPILLBYTES and of the space left on
each of the looms (R47). -/
def State.withShare (s : State) (partition : List Nat) (place : Nat) (r : LoomsetRec) : LoomsetRec :=
  { r with spillShare := (r.looms partition place).foldl (fun n l => min n (s.loom l).spillLeft) r.spillBytes }

end Sys2Proof.Machine
end

