-- ==== Sys2Proof/Machine/Control.lean ====
section
/-!
DEFINITION. The control lane's transfers, loops, tokens, spawn, halt, trap, mark and yield (spec/09 R154 to R165, R342).
A transfer takes effect at the next pick (R124), so the meanings leave it with the pick in progress.
-/

namespace Sys2Proof.Machine

/-! ## Transfers (R154) -/

/-- A relative target: P + 16 × SExt(offset). -/
def State.relative (s : State) (off : Int) : Int := (s.cur.pick : Int) + 16 * off
/-- Is a target refused (Table 24.2): bits 3:0 nonzero, or at or past the end of the picks? A stream program's picks have
no end of their own: its fetch is checked against its window. -/
def State.badTarget (s : State) (t : Int) : Bool :=
  t % 16 ≠ 0 ||
  match s.cur.stream with
  | some _ => false
  | none =>
    match s.myRun with
    | some r => t < 0 || (r.pickBytes : Int) ≤ t
    | none => true
/-- Take a transfer, or refuse its target. -/
def State.transfer (s : State) (t : Int) (pops link : Bool) : State :=
  if s.badTarget t then s.stopSlot 0x201 1 0#64
  else s.updIssue (fun i => { i with control := .jump (t % 2 ^ 64).toNat pops, link := link })

/-- BRC. -/
def execBrc (a : BitVec 6) (n : Bool) (off : BitVec 28) (s : State) : Host.Outcome State Fault Refusal :=
  .next (if (s.rS a != 0#64) != n then s.transfer (s.relative off.toInt) true false else s)
/-- CALL. -/
def execCall (off : BitVec 28) (s : State) : Host.Outcome State Fault Refusal :=
  .next (s.transfer (s.relative off.toInt) false true)
/-- JMP. -/
def execJmp (a : BitVec 6) (s : State) : Host.Outcome State Fault Refusal :=
  .next (s.transfer (s.rS a).toNat true false)
/-- CALLI. -/
def execCalli (a : BitVec 6) (s : State) : Host.Outcome State Fault Refusal :=
  .next (s.transfer (s.rS a).toNat false true)
/-- RET: to lr, s62, as read at issue. -/
def execRet (s : State) : Host.Outcome State Fault Refusal :=
  .next (s.transfer (s.rS 62#6).toNat false false)

/-! ## Loops (R35 to R38, R155) -/

/-- The address after the current pick. -/
def State.afterPick (s : State) : Nat := s.cur.pick + s.pickSize s.cur.pick
/-- A loop of a count and a body of len + 1 picks. A count of 0 pushes nothing; a seventh push is refused. -/
def State.startLoop (s : State) (count : Nat) (len : BitVec 8) : State :=
  let first := s.afterPick
  let last := s.picksOn first len.toNat
  if count = 0 then s.updIssue (fun i => { i with control := .skipBody last })
  else if 6 ≤ s.me.loops.length then s.stopSlot 0x203 1 0#64
  else
    let e : LoopEntry :=
      { left := count, first := first, last := last, depth := s.me.loops.length, rep := false, stride := 0 }
    s.updIssue (fun i => { i with control := .loopEntry e })
/-- A repeat of the next pick. -/
def State.startRep (s : State) (count : Nat) (stride : BitVec 4) : State :=
  if count = 0 then s.updIssue (fun i => { i with control := .skipPick })
  else if 6 ≤ s.me.loops.length then s.stopSlot 0x203 1 0#64
  else
    let e : LoopEntry :=
      { left := count, first := s.afterPick, last := s.afterPick, depth := s.me.loops.length, rep := true,
        stride := stride.toNat }
    s.updIssue (fun i => { i with control := .loopEntry e })

/-- LOOP. -/
def execLoop (cnt : BitVec 10) (len : BitVec 8) (s : State) : Host.Outcome State Fault Refusal :=
  .next (s.startLoop cnt.toNat len)
/-- LOOP with a register count. -/
def execLoopReg (a : BitVec 6) (len : BitVec 8) (s : State) : Host.Outcome State Fault Refusal :=
  .next (s.startLoop ((s.rS a).extractLsb' 0 32).toNat len)
/-- REP. -/
def execRep (cnt : BitVec 10) (stride : BitVec 4) (s : State) : Host.Outcome State Fault Refusal :=
  .next (s.startRep cnt.toNat stride)
/-- REP with a register count. -/
def execRepReg (a : BitVec 6) (stride : BitVec 4) (s : State) : Host.Outcome State Fault Refusal :=
  .next (s.startRep ((s.rS a).extractLsb' 0 32).toNat stride)
/-- BRKL. -/
def execBrkl (s : State) : Host.Outcome State Fault Refusal :=
  .next (if s.me.loops = [] then s.stopSlot 0x204 1 0#64 else s.updIssue (fun i => { i with control := .leave }))

/-- Is a cqfill of the launch to a queue outstanding on the loom (R157)? -/
def Loom.filling (l : Loom) (id q : Nat) : Bool :=
  l.queues.fill.any (fun c => c.launch = id && c.dest = q && !c.done)
/-- LOOPQ: pops an entry of a count queue (R156, R157). -/
def execLoopq (q : BitVec 2) (len : BitVec 8) (s : State) : Host.Outcome State Fault Refusal :=
  let l := s.loom s.cur.loom
  .next (match Tab.get l.cq q.toNat [] with
    | [] => if l.filling s.me.launch q.toNat then s.hold else s.stopSlot 0x20B 1 0#64
    | c :: rest =>
      if c ≠ 0#32 && 6 ≤ s.me.loops.length then s.stopSlot 0x203 1 0#64
      else (s.updLoom s.cur.loom (fun l => { l with cq := Tab.put l.cq q.toNat rest })).startLoop c.toNat len)
/-- CQPUSH: the seventeenth entry is refused (Table 24.2). -/
def execCqpush (q : BitVec 2) (a : BitVec 6) (s : State) : Host.Outcome State Fault Refusal :=
  let entries := Tab.get (s.loom s.cur.loom).cq q.toNat []
  .next (if 16 ≤ entries.length then s.stopSlot 0x20A 1 0#64
    else s.updLoom s.cur.loom (fun l =>
      { l with cq := Tab.put l.cq q.toNat (entries ++ [(s.rS a).extractLsb' 0 32]) }))

/-! ## Tokens (R160) -/

/-- Is a token of the current sequencer outstanding: some command or launch will set it (R360)? A command of the pick itself, which
has not issued, is none; one that issued before its pick was resumed is. -/
def State.outstanding (s : State) (k : Nat) : Bool :=
  let l := s.loom s.cur.loom
  let earlier := fun (c : Cmd) => c.stamp ≠ s.cycle || c.step ≠ s.cur.step || s.issue.elim false (·.resumed)
  let own := fun (c : Cmd) => c.launch = s.me.launch && c.seq = s.cur.seq && c.token == some k && earlier c
  (l.queues.matrix ++ l.queues.shuttle ++ l.queues.jacquard ++ l.queues.fill).any own ||
  match s.cur.stream with
  | none => false
  | some t => s.launches.any (fun p => p.2.tenancy = t && p.2.token = k && p.2.phase ≠ .ended)
/-- Is a named token neither set nor outstanding, so that it never comes (0x607, R360)? -/
def State.neverSet (s : State) (mask : BitVec 8) : Bool :=
  (List.range 8).any (fun k => mask.getLsbD k && !s.me.dtView.getLsbD k && !s.outstanding k)
/-- DTWAIT: waits until the tokens are set, then clears them; 0x607 for one that nothing will set. -/
def execDtwait (mask : BitVec 8) (s : State) : Host.Outcome State Fault Refusal :=
  .next (if s.neverSet mask then s.stopSlot 0x607 1 0#64
    else if s.me.seesTokens mask then s.clearTokens mask
    else s.waitFor (.tokens mask))

/-! ## Sequencers (R161 to R165) -/

/-- SPAWN: starts a dormant sequencer of the launch on the loom (R161, R342, R344). It is active, and may
issue, from the next cycle. -/
def execSpawn (seq : BitVec 3) (base : BitVec 6) (count : BitVec 4) (entry : BitVec 22) (s : State) :
    Host.Outcome State Fault Refusal :=
  let t := s.relative entry.toInt
  let args := (List.range count.toNat).map (fun i => s.rS (base + BitVec.ofNat 6 i))
  .next (if s.badTarget t then s.stopSlot 0x201 1 0#64
    else
      match s.myRun.bind (fun r => Tab.find? r.records seq.toNat) with
      | none => s.stopSlot 0x207 1 0#64
      | some rec =>
        if (s.seq s.cur.loom seq.toNat).status ≠ .dormant then s.stopSlot 0x206 0 0#64
        else
          s.updSeq s.cur.loom seq.toNat (fun old =>
            (Seq.activated s.me.launch (BitVec.ofInt 64 t) args rec (s.cycle + 1)).follows old))
/-- HALT: the sequencer becomes dormant when its pick has issued (R162). -/
def execHalt (s : State) : Host.Outcome State Fault Refusal := .next (s.updIssue (fun i => { i with halt := true }))
/-- TRAP: a stop that follows its pick (R163, R320). -/
def execTrap (code : BitVec 8) (s : State) : Host.Outcome State Fault Refusal :=
  .next (s.updIssue (fun i => { i with trapCode := some code.toNat }))
/-- YIELD: clears the holds; a pending light switch takes effect when its pick has issued (R165). -/
def execYield (s : State) : Host.Outcome State Fault Refusal := .next (s.updIssue (fun i => { i with yields := true }))

/-! ## Trace records (R300, R301) -/

/-- A drift as 32 bits, saturated. -/
def satDrift (d : Int) : Word := BitVec.ofInt 32 (min (max d (-2147483648)) 2147483647)
/-- MARK: logs the drift, and arms or disarms interlock tracing (R164, R300). -/
def execMark (mstep : BitVec 34) (s : State) : Host.Outcome State Fault Refusal :=
  let drift : Int := ((s.cycle - s.me.activeSince : Nat) : Int) - (mstep.toNat : Int)
  let limit := (Tab.get (s.loom s.cur.loom).debug s.myTenancy DebugCopy.reset).drift.toNat
  let s1 := s.updLoom s.cur.loom (fun l =>
    l.addTrace (traceRecord 1 s.cur.seq 13 0 s.cur.pick (satDrift drift).toNat s.cur.step))
  .next (s1.updMe (fun q => { q with tracing := decide (limit < drift.natAbs) }))

end Sys2Proof.Machine
end

