-- ==== Sys2Proof/Machine/EngineBase.lean ====
section
/-!
DEFINITION. What the engine lanes share: the issue of a command into its queue, its registers, its chunk-boundary stop, and
the segments and windows that its chunks reach (R211 to R213, R315, R354 to R356).
-/

namespace Sys2Proof.Machine

/-! ## Queues -/

/-- One queue. -/
def Queues.get (q : Queues) (e : Engine) : List Cmd :=
  match e with
  | .matrix => q.matrix
  | .shuttle => q.shuttle
  | .jacquard => q.jacquard
  | .fill => q.fill
/-- Replace one queue. -/
def Queues.put (q : Queues) (e : Engine) (l : List Cmd) : Queues :=
  match e with
  | .matrix => { q with matrix := l }
  | .shuttle => { q with shuttle := l }
  | .jacquard => { q with jacquard := l }
  | .fill => { q with fill := l }
/-- Agent numbers of the engines (Table 22.3). -/
def engineAgent (e : Engine) : Nat :=
  match e with
  | .matrix => 8
  | .shuttle => 10
  | .jacquard => 11
  | .fill => 12
/-- The commands of an engine on a loom. -/
def Loom.cmds (l : Loom) (e : Engine) : List Cmd := l.queues.get e
/-- Change the queue of an engine on a loom. -/
def State.updCmds (s : State) (l : Nat) (e : Engine) (f : List Cmd → List Cmd) : State :=
  s.updLoom l (fun x => { x with queues := x.queues.put e (f (x.queues.get e)) })
/-- Change command i of an engine's queue. -/
def State.updCmd (s : State) (l : Nat) (e : Engine) (i : Nat) (f : Cmd → Cmd) : State :=
  s.updCmds l e (fun q => q.mapIdx (fun k c => if k = i then f c else c))
/-- Is a queue full (16 entries)? -/
def Loom.full (l : Loom) (e : Engine) : Bool := 16 ≤ (l.cmds e).length

/-! ## Issue (R211, R354) -/

/-- A command of the current slot. -/
def State.newCmd (s : State) (op : Mnemonic) (args : List DWord) (token : Option Nat) (eng : EngLent) (scope : Nat) : Cmd :=
  let work : JWork := { stack := [], acc := 0#64, index := 0, begun := false, finished := false }
  { op := op, launch := s.me.launch, seq := s.cur.seq, pick := s.cur.pick, step := s.cur.step, lane := s.cur.lane.index,
    stamp := s.cycle, tag := BitVec.ofNat 12 s.rTag, token := token, aq := eng.aq, rl := eng.rl, scope := scope,
    args := args, ac := 0, fa := 0, fb := 0, fn := 0, dest := 0, shape := s.me.shape, window := s.me.window, rows := 0,
    cursor := 0#64, begun := false, active := false, chunk := none, requested := some (s.cycle + 1), stopped := false,
    parked := false, again := false, done := false, posted := false, scaled := none, work := work, offered := none, answer := none,
    partnerStopped := false, waitedSince := none,
    waitReported := false }
/-- A command's token, from TK of mx and sh. -/
def tokenOf (tk : BitVec 4) : Option Nat := if tk.getLsbD 3 then some (tk.extractLsb' 0 3).toNat else none
/-- An engine slot waits for its tokens before anything else of it counts (R211); one that can never be set stops it (R360). -/
def State.afterTokens (s : State) (wm : BitVec 8) (go : State) : State :=
  if s.neverSet wm then s.stopSlot 0x607 1 0#64
  else if !s.me.seesTokens wm then s.waitFor (.tokens wm)
  else go
/-- Issue of an engine slot: it waits for its tokens, is checked, is held while the queue is full, clears its tokens and
enters the queue. -/
def State.engineSlot (s : State) (e : Engine) (wm : BitVec 8) (fault : Option Nat) (operand : DWord) (c : Cmd) : State :=
  s.afterTokens wm (match fault with
    | some code => s.stopSlot code 1 operand
    | none =>
      if (s.loom s.cur.loom).full e then s.hold
      else (s.clearTokens wm).updCmds s.cur.loom e (fun q => q ++ [c]))
/-- The first condition that holds, of several in the order of a table. -/
def firstCode (l : List (Bool × Nat)) : Option Nat := (l.find? (·.1)).map (·.2)
/-- Has a launch lost one of its looms, which was contained (R323)? -/
def State.lostLoom (s : State) (id l : Nat) : Bool :=
  ((s.loom l).run id).isNone && (match Tab.find? s.launches id with
    | some x => x.phase = .running && x.looms.contains l
    | none => false)
/-- Is a loom one of a launch's, lost or not? -/
def State.launchLoom (s : State) (id l : Nat) : Bool := ((s.loom l).run id).isSome || s.lostLoom id l
/-- The owning loom of a segment descriptor. -/
def ownerOf (l : Nat) (d : DWord) : Nat := 16 * clusterOf l + descLoom d
/-- Is a descriptor no plain segment descriptor of the launch (Table 25.1, 0x604): far, per-use bits set where they are
zero, or a remote owner outside the launch? A stream program names far descriptors only (R277). -/
def State.badSegDesc (s : State) (d : DWord) (use : Nat) : Bool :=
  s.cur.stream.isSome || isFar d || descUse d ≠ use ||
  (ownerOf s.cur.loom d ≠ s.cur.loom && !s.launchLoom s.me.launch (ownerOf s.cur.loom d))
/-- The limits of sys.chunk (Table 3.3). -/
def chunkBytes (c : DWord) : Nat := (c.extractLsb' 0 13).toNat
def chunkCycles (c : DWord) : Nat := (c.extractLsb' 16 13).toNat
/-- sys.chunk of the current launch; a stream sequencer's commands take the largest limits (log 18). -/
def State.chunkOf (s : State) (l id : Nat) : DWord :=
  match (s.loom l).run id with
  | some r => r.chunk
  | none => 0x10001000#64

/-! ## Shapes (Table 7.16) -/

def shapeRows (d : DWord) : Nat := (d.extractLsb' 32 16).toNat
def shapeBytes (d : DWord) : Nat := (d.extractLsb' 0 32).toNat
/-- P: the pitch in bytes, or the row's own bytes. -/
def shapePitch (d : DWord) : Nat :=
  if d.extractLsb' 48 16 = 0#16 then shapeBytes d else (d.extractLsb' 48 16).toNat * 64
/-- A cursor of row or index in bits 47:32 and byte in bits 31:0. -/
def rowCursor (row byte : Nat) : DWord := BitVec.ofNat 64 (row * 2 ^ 32 + byte)
def cursorRow (c : DWord) : Nat := (c.extractLsb' 32 16).toNat
def cursorByte (c : DWord) : Nat := (c.extractLsb' 0 32).toNat

/-! ## What a chunk reaches (R356) -/

/-- A run of bytes that a chunk reads or writes: in a segment of some loom, in a window, or in a shared bank. -/
inductive Reach where
  | seg (loom seg tag : Nat) (offs : List Nat) (size align : Nat) (write : Bool)
  | far (desc : DWord) (size : Nat) (write : Bool)
  | shared (word : DWord) (size : Nat) (write : Bool)
deriving DecidableEq, Repr
/-- Is it a write? -/
def Reach.isWrite (r : Reach) : Bool :=
  match r with
  | .seg _ _ _ _ _ _ w => w
  | .far _ _ w => w
  | .shared _ _ w => w
/-- What an engine's next chunk is. -/
structure Plan where
  units : Nat
  cycles : Nat          -- cycles of the chunk over local data
  distant : Bool        -- it moves remote or far data, and takes longer
  reach : List Reach
  fault : Option (Nat × Nat × DWord)   -- a failure of its own: code, OUTC, OPERAND
deriving DecidableEq, Repr
/-- Owner and byte address of a shared-bank location word (Table 5.5). -/
def wordOwner (l : Nat) (w : DWord) : Nat := 16 * clusterOf l + (w.extractLsb' 28 4).toNat
def wordAddr (w : DWord) : Nat := (20 + (w.extractLsb' 21 3).toNat) * 2097152 + (w.extractLsb' 0 21).toNat
/-- A check that failed: code, OUTC and OPERAND. -/
abbrev ChunkFault := Nat × Nat × DWord
/-- The first failing byte of a chunk's access at an offset: past the end, the first byte beyond the declared size. -/
def State.failingByte (s : State) (o id seg code off : Nat) : Nat :=
  let size := (((s.loom o).run id).bind (fun r => Tab.find? r.segs seg)).elim 0 (·.size)
  if code = 0x211 then max off size else off
/-- The fault of one reach: Table 24.6 with 0x215 in its place, a location word, or a window. What a chunk writes of a poisoned
line is judged over the whole chunk. -/
def State.reachFault (s : State) (l id t : Nat) (r : Reach) : Option ChunkFault :=
  match r with
  | .seg o seg tag offs size align write =>
    let a : Access := { seg := seg, tag := tag, offs := offs, size := size, align := align, write := write }
    let unshared := o ≠ l && !((((s.loom o).run id).bind (fun r => Tab.find? r.segs seg)).map (·.shared)).getD true
    match s.accessFault o id t a with
    | some (c, outc, off) =>
      if c = 0x911 && !unshared then none
      else if unshared && (c = 0x303 || c = 0x911) then some (0x215, 0, operandOf seg tag (offs.headD 0))
      else some (c, outc, operandOf seg tag (s.failingByte o id seg c off))
    | none => if unshared then some (0x215, 0, operandOf seg tag (offs.headD 0)) else none
  | .far d size write => (s.windowFault t d size 1 write).map (fun c => (c, 1, farOperand d))
  | .shared w _ _ =>
    if w.extractLsb' 32 32 ≠ 0#32 || w.extractLsb' 24 4 ≠ 0#4 || !(wordOwner l w = l || neighbours (wordOwner l w) l) then
      some (0x505, 1, BitVec.ofNat 64 ((20 + (w.extractLsb' 21 3).toNat) * 2 ^ 32 + (w.extractLsb' 7 6).toNat))
    else none
/-- What a reach asks of a Spindle. -/
def State.reachNeeds (s : State) (id : Nat) (r : Reach) : OwnedNeeds :=
  match r with
  | .seg o seg tag offs size align write =>
    match (s.loom o).run id with
    | none => []
    | some run => [(o, run.needsOf
        { seg := seg, tag := tag, offs := offs, size := size, align := align, write := write })]
  | _ => []
/-- Are needs met on every owner? -/
def State.needsMet (s : State) (id : Nat) (ns : OwnedNeeds) : Bool :=
  ns.all (fun p => match (s.loom p.1).run id with
    | some r => p.2.all r.needMet
    | none => true)
/-- Does one need ask for all that another asks for? -/
def Need.covers (a b : Need) : Bool :=
  match a, b with
  | .segment s w, .segment t v => s = t && (w || !v)
  | .overlay s x k c, .overlay t y j d => s = t && x = y && k = j && (c || !d)
  | _, _ => false
/-- Needs with each segment and overlay named once, as it is written where any of them writes it. -/
def mergeNeeds (l : List Need) : List Need :=
  l.foldl (fun acc n => if acc.any (fun m => m.covers n) then acc else acc.filter (fun m => !n.covers m) ++ [n]) []
/-- Needs gathered by owner. -/
def gatherNeeds (l : OwnedNeeds) : OwnedNeeds :=
  l.foldl (fun acc p =>
    if acc.any (fun q => q.1 = p.1) then
      acc.map (fun q => if q.1 = p.1 then (q.1, mergeNeeds (q.2 ++ p.2)) else q)
    else acc ++ [(p.1, mergeNeeds p.2)]) []
/-- The first of several lines whose check finds a code; a transfer carries the poison of a line, and only what it detects itself
stops it (R368, R371). -/
def firstBad (carry : Bool) (check : Nat → State → Option Nat × State) (lines : List Nat) (s : State) : Option (Nat × Nat) × State :=
  match lines with
  | [] => (none, s)
  | k :: rest =>
    match check k s with
    | (some c, s1) => if carry && c = 0x910 then firstBad carry check rest s1 else (some (c, k), s1)
    | (none, s1) => firstBad carry check rest s1
/-- The lines that a chunk reads, checked when it retires: ECC, poison, and the targets of far accesses, which may be out of reach or
refuse (R369, R371, R377). -/
def State.reachRead (s : State) (l id t : Nat) (carry : Bool) (r : Reach) : Option ChunkFault × State :=
  match r with
  | .seg o seg tag offs size _ false =>
    let c := firstBad carry (fun k s => s.checkLine o id t seg tag k) (offs.flatMap (fun x => linesOf x size)).eraseDups s
    (c.1.map (fun x => (x.1, 1, operandOf seg tag (64 * x.2))), c.2)
  | .far d size write =>
    let e := s.window t (farWindow d)
    let a := winTarget e (farOffset d)
    match s.farAnswer (winKind e) a write with
    | (some code, s1) => (some (code, 1, farOperand d), s1)
    | (none, s1) =>
      if write then (none, s1)
      else
        let c := firstBad carry (fun k s => s.checkFar (stackOf l) (winKind e) (winPeer e) (s.keyOf e) [k]) (linesOf a size) s1
        (c.1.map (fun x => (x.1, 1, farOperand d)), c.2)
  | .shared w size false =>
    let check := fun (k : Nat) (s : State) =>
      let c := s.checkVault (wordOwner l w) t [k]
      (c.1.map (·.1), c.2)
    let c := firstBad carry check ((s.loom (wordOwner l w)).ownLines t (s.placedAt l id) (linesOf (wordAddr w) size)) s
    (c.1.map (fun x => (x.1, 1, vaultOperand (64 * x.2))), c.2)
  | _ => (none, s)
/-- The first bad read of a chunk, or far write that cannot be made. -/
def State.reachReads (s : State) (l id t : Nat) (carry : Bool) (rs : List Reach) : Option ChunkFault × State :=
  match rs with
  | [] => (none, s)
  | r :: rest =>
    match s.reachRead l id t carry r with
    | (some f, s1) => (some f, s1)
    | (none, s1) => State.reachReads s1 l id t carry rest
/-- The writes of a chunk, line by line: the place of each line, as a key, with the bytes of it that a write covers. -/
def Reach.writes (l : Nat) (r : Reach) : List ((Nat × Nat × Nat × Nat) × Nat × Nat) :=
  let cut := fun (key : Nat → Nat × Nat × Nat × Nat) (a n : Nat) => (linesOf a n).map (fun k =>
    (key k, max a (64 * k) - 64 * k, min (a + n) (64 * k + 64) - 64 * k))
  match r with
  | .seg o g tag offs size _ true => offs.flatMap (fun x => cut (fun k => (o, g, tag, k)) x size)
  | .shared w size true => cut (fun k => (wordOwner l w, 4096, 0, k)) (wordAddr w) size
  | .far d size true => cut (fun k => (farWindow d, 4097, 0, k)) (farOffset d) size
  | _ => []
/-- Do runs of bytes cover a line? -/
def coversLine (runs : List (Nat × Nat)) : Bool := (List.range 64).all (fun i => runs.any (fun r => r.1 ≤ i && i < r.2))
/-- Is the line of a key poisoned, and how a record names it. -/
def State.linePoison (s : State) (l id t : Nat) (key : Nat × Nat × Nat × Nat) : Bool × DWord :=
  let (a, seg, tag, k) := key
  if seg < 4096 then (((s.loom a).run id).elim false (fun r => r.poisoned seg tag k), operandOf seg tag (64 * k))
  else if seg = 4096 then
    (((s.loom a).ownLines t (s.placedAt l id) [k]).any (fun k => (s.loom a).vaultPoison.contains k), vaultOperand (64 * k))
  else
    let e := s.window t a
    (s.farSeenPoison (stackOf l) (winKind e) (winPeer e) (winTarget e (64 * k)) 1, operandOf a 0 (64 * k))
/-- A poisoned line of which a chunk writes less than all (R369). -/
def State.partialWrite (s : State) (l id t : Nat) (rs : List Reach) : Option ChunkFault :=
  let ws := rs.flatMap (fun r => r.writes l)
  ((ws.map (·.1)).eraseDups.find? (fun k =>
    (s.linePoison l id t k).1 && !coversLine ((ws.filter (fun w => w.1 = k)).map (·.2)))).map (fun k =>
      (0x911, 1, (s.linePoison l id t k).2))
/-- Cells of a launch's segment on a loom. -/
def State.cellsAt (s : State) (l id seg tag off n : Nat) : List Byte :=
  match (s.loom l).run id with
  | some r => r.cells seg tag off n
  | none => []

/-- Posts of the cluster whose chunk is in progress towards a loom: each has its place in the landing queue (R229). -/
def State.postsTo (s : State) (o : Nat) : Nat :=
  (loomsOf (clusterOf o)).foldl (fun n l =>
    n + ((s.loom l).queues.shuttle.filter (fun c => c.op = .post && c.chunk.isSome && !c.done && ownerOf l (c.args.headD 0#64) = o)).length) 0
/-- Has a request for a place in a landing queue arrived before another? Each stands for its cycle of arrival, its command's stamp, its
loom and its place in its queue: two of one cycle are in the order in which requests to the Spindle are granted (R56; DEDUCED, log 74). -/
def arrivedBefore (a b : Nat × Nat × Nat × Nat) : Bool :=
  a.1 < b.1 || (a.1 = b.1 && (a.2.1 < b.2.1 || (a.2.1 = b.2.1 && (a.2.2.1 < b.2.2.1 || (a.2.2.1 = b.2.2.1 && a.2.2.2 < b.2.2.2)))))
/-- The requests that wait for a place in a loom's landing queue: posts of the cluster whose chunks are not granted, and collection
requests of its own Jacquard (R229, R361). -/
def State.landingWaiters (s : State) (o : Nat) : List (Nat × Nat × Nat × Nat) :=
  (loomsOf (clusterOf o)).flatMap (fun l => (((s.loom l).queues.shuttle).take 4).zipIdx.filterMap (fun p =>
    if p.1.op == .post && !p.1.stopped && !p.1.done && p.1.chunk.isNone && ownerOf l (p.1.args.headD 0#64) == o then
      match p.1.waitedSince, p.1.requested with
      | some x, _ => some (x, p.1.stamp, l, p.2)
      | none, some x => if x ≤ s.cycle then some (s.cycle, p.1.stamp, l, p.2) else none
      | none, none => none
    else none)) ++
  (s.loom o).landingWaits.map (fun w => (w.since, w.stamp, o, 4))
/-- Is there a place in a loom's landing queue for a request? They take places in the order in which they arrive (R361). -/
def State.landingFits (s : State) (o : Nat) (me : Nat × Nat × Nat × Nat) : Bool :=
  (s.loom o).landing.length + s.postsTo o < 8 && !(s.landingWaiters o).any (fun w => arrivedBefore w me)
/-- A collection request takes its place in its loom's landing queue, or waits for one. -/
def State.askLanding (s : State) (l : Nat) (w : LandingWait) : State :=
  if s.landingFits l (w.since, w.stamp, l, 4) then s.updLoom l (fun x => { x with landing := x.landing ++ [w.message] })
  else s.updLoom l (fun x => { x with landingWaits := x.landingWaits ++ [w] })
/-- The collection requests that wait ask again. -/
def State.settleLanding (s : State) : State :=
  s.looms.foldl (fun s p =>
    p.2.landingWaits.foldl (fun s w => s.askLanding p.1 w)
      (if p.2.landingWaits = [] then s else s.updLoom p.1 (fun x => { x with landingWaits := [] }))) s

/-! ## Stops and drops (R315, R323) -/

/-- The tenancy that a queue's command belongs to: a launch's, or the stream's own. -/
def State.cmdTenancy (s : State) (l : Nat) (c : Cmd) : Nat :=
  if 1280 ≤ l then l - 1280
  else
    match (s.loom l).run c.launch with
    | some r => r.tenancy
    | none => 0
/-- Where a record about a loom's agent says it happened: a stream's port has no loom. -/
def portNumber (l : Nat) : Nat := if l < 1280 then l else 0x7FF
/-- A chunk-boundary stop of command i: its cursor is kept, the record names it, and with OUTC 1 its launch ends. -/
def State.stopChunk (s : State) (l : Nat) (e : Engine) (i : Nat) (c : Cmd) (f : ChunkFault) : State :=
  let t := s.cmdTenancy l c
  let s1 := s.updCmd l e i (fun c => { c with stopped := true, chunk := none, requested := none })
  let s2 := s1.withdrawOf l (engineAgent e) c.stamp
  let s3 := s2.record t
    { word0 := recordWord0 1 f.2.1 0#14 f.1, word1 := recordWord1 (portNumber l) t (engineAgent e) c.lane
      pick := BitVec.ofNat 64 c.pick, step := c.cursor, operand := f.2.2
      launch := if l < 1280 then some c.launch else none, command := some (c.seq, c.stamp) }
  if f.2.1 = 1 && l < 1280 then s3.endLaunch c.launch else s3
/-- The engines in agent order. -/
def engines : List Engine := [.matrix, .shuttle, .jacquard, .fill]
/-- Take command i out of its queue. -/
def State.removeCmd (s : State) (l : Nat) (e : Engine) (i : Nat) : State :=
  s.updCmds l e (fun q => q.eraseIdx i)
/-- Set a command's token. -/
def State.cmdToken (s : State) (l : Nat) (c : Cmd) : State :=
  match c.token with
  | none => s
  | some k =>
    if 1280 ≤ l then s.setStreamToken (l - 1280) k
    else s.setSeqToken l c.seq c.launch k

end Sys2Proof.Machine
end

