-- ==== Sys2Proof/Machine/Vector.lean ====
section
/-!
DEFINITION. The vector lanes va, vb and vc (spec/10, R167 to R185). An operation is a value for each active element; what it
writes, the flags it raises and whether it meets the subnormal range follow from the elements.
-/

namespace Sys2Proof.Machine

/-! ## Elements (R167) -/

/-- Element i of a register, of a size in bits. -/
def elemAt (x : VReg) (size i : Nat) : Nat := x.toNat >>> (size * i) % 2 ^ size
/-- An element as a signed integer. -/
def toSigned (size x : Nat) : Int := if x < 2 ^ (size - 1) then (x : Int) else (x : Int) - 2 ^ size
/-- An integer reduced modulo 2^size. -/
def ofSigned (size : Nat) (i : Int) : Nat := (i % 2 ^ size).toNat
/-- Modulo 2^size, or saturated signed (R172). -/
def narrow (size : Nat) (sat : Bool) (i : Int) : Nat :=
  if sat then ofSigned size (max (-(2 ^ (size - 1))) (min i (2 ^ (size - 1) - 1))) else ofSigned size i
/-- Elements packed from bit 0. -/
def packElems (size : Nat) (xs : List Nat) : Nat :=
  match xs with
  | [] => 0
  | x :: r => x % 2 ^ size + packElems size r <<< size

/-- Format of a floating-point type code (R117). -/
def typeFmt (t : Nat) : Fmt :=
  match t with
  | 0 => binary32 | 1 => bf16 | 2 => binary16 | 3 => e4m3 | _ => e5m2
/-- Formats that replay for subnormals (R100). -/
def replays (t : Nat) : Bool := t < 3

/-! ## The slot as it issues -/

/-- The cluster of a vector lane: 0 to 2. -/
def clusterOfLane (l : Lane) : Nat :=
  match l with
  | .vb => 1 | .vc => 2 | _ => 0
/-- What a vector slot reads at issue (R167). -/
structure VecSlot where
  cl : Nat
  t : Nat
  size : Nat
  n : Nat
  width : Nat            -- bits of the width
  d : Nat
  a : VReg
  b : VReg
  c : VReg
  guard : QReg
  gn : Bool
  mode : BitVec 2        -- R95
  sat : Bool
  nb : Bool
  cond : Nat
  bField : Nat
  imm : Int              -- imm10
  scalar : DWord         -- s[A], for vbcs and vput
deriving DecidableEq, Repr

/-- A vector register of 0 to 95. -/
def State.readVec (s : State) (r : Nat) : VReg := if r < 96 then s.rV r else 0#1024
/-- Read a vector slot's operands. -/
def State.vecSlot (s : State) (o : VecOps) : VecSlot :=
  let cl := clusterOfLane s.cur.lane
  let t := o.t.toNat
  let l := o.lent.getD ⟨false, o.d, 0#4⟩
  let rm := l.low.extractLsb' 2 2
  { cl := cl, t := t, size := typeSize t, n := 256 * 2 ^ o.w.toNat / typeSize t, width := 256 * 2 ^ o.w.toNat,
    d := 32 * cl + o.d.toNat, a := s.readVec o.a.toNat, b := s.readVec (32 * cl + o.b.toNat),
    c := s.readVec (32 * cl + l.c.toNat), guard := s.rQ (8 * cl + o.g.toNat), gn := l.gn,
    mode := if rm = 0#2 then s.me.frm else rm, sat := l.low.getLsbD 1, nb := l.low.getLsbD 0, cond := l.low.toNat,
    bField := o.b.toNat,
    imm := (match o.lent with | some x => (x.c ++ o.b).toInt | none => o.b.toInt),
    scalar := s.rS (o.a.extractLsb' 0 6) }
/-- Is element i active at an element size (R167)? -/
def VecSlot.activeAt (v : VecSlot) (size i : Nat) : Bool := v.guard.getLsbD (size / 8 * i) != v.gn
def VecSlot.active (v : VecSlot) (i : Nat) : Bool := v.activeAt v.size i
def VecSlot.x (v : VecSlot) (i : Nat) : Nat := elemAt v.a v.size i
def VecSlot.y (v : VecSlot) (i : Nat) : Nat := elemAt v.b v.size i
def VecSlot.z (v : VecSlot) (i : Nat) : Nat := elemAt v.c v.size i
/-- Active elements. -/
def VecSlot.actives (v : VecSlot) : Nat := (List.range v.n).countP v.active

/-- What a vector slot does: bits of D, flags, subnormal range met, element operations counted. -/
structure VecEffect where
  mask : Nat
  value : Nat
  flags : BitVec 5
  tiny : Bool
deriving DecidableEq, Repr
/-- The effect of elements of a size: those that are written, with their results. -/
def elementsEffect (size : Nat) (xs : List (Option Rounded)) : VecEffect :=
  { mask := packElems size (xs.map (fun r => if r.isSome then 2 ^ size - 1 else 0))
    value := packElems size (xs.map (fun r => (r.map (fun x => x.code)).getD 0))
    flags := xs.foldl (fun f r => match r with | some x => f ||| x.flags | none => f) 0#5
    tiny := xs.any (fun r => match r with | some x => x.tiny | none => false) }
/-- A plain result: no flag, no replay. -/
def plain (x : Nat) : Rounded := ⟨x, 0#5, false⟩
/-- One result for each active element. -/
def VecSlot.each (v : VecSlot) (f : Nat → Rounded) : VecEffect :=
  elementsEffect v.size ((List.range v.n).map (fun i => if v.active i then some (f i) else none))

/-- Counter and weight of a slot's element operations (R185). -/
def elementCounter (t : Nat) : Nat := if t = 0 then 8 else if t < 3 then 9 else 10

/-- Write the effect to a vector register, with its flags and its count. -/
def State.vecWrite (s : State) (d lat : Nat) (e : VecEffect) (counter n : Nat) : State :=
  ((s.raise e.flags).result (.v d) lat (BitVec.ofNat 1024 e.mask) (BitVec.ofNat 1024 e.value)).countLater counter lat n

/-! ## Floating point (R171, R173, R175) -/

/-- A floating-point operation of Table 10.1 on one element. -/
def fpElement (m : Mnemonic) (t : Nat) (mode : BitVec 2) (nb : Bool) (x y z : Nat) : Rounded :=
  let f := typeFmt t
  let a := f.decode x
  let b := if nb then (f.decode y).neg else f.decode y
  let sub2 := f.subnormal x || f.subnormal y
  let fin := fun (e : Exact) (sub : Bool) => let r := e.round f mode; { r with tiny := r.tiny || sub }
  match m with
  | .fadd => fin (a.add b mode) sub2
  | .fsub => fin (a.add b.neg mode) sub2
  | .fmul => fin (a.mul b) sub2
  | .fma => fin (a.fma b (f.decode z) mode) (sub2 || f.subnormal z)
  | .fmin => fin (a.minMax b false) sub2
  | .fmax => fin (a.minMax b true) sub2
  | .vrnd =>
    match a with
    | .fin neg k e =>
      let (n, inexact) := roundAt mode neg k e 0
      let r := f.round 0#2 neg n 0
      ⟨r.code, flagIf inexact flagInexact, f.subnormal x⟩
    | .inf _ => ⟨x, 0#5, false⟩
    | .nan g => ⟨f.canonical, flagIf g flagInvalid, false⟩
  | _ => plain 0
/-- A test of Table 7.8 on floating-point elements (Table 10.3). -/
def fpTest (t cond x y : Nat) : Bool × BitVec 5 :=
  let a := (typeFmt t).decode x
  let b := (typeFmt t).decode y
  match cond with
  | 0 => a.test b true (fun o => o == .eq)
  | 1 => let r := a.test b true (fun o => o == .eq); (!r.1, r.2)
  | 2 => a.test b false (fun o => o == .lt)
  | 3 => a.test b false (fun o => o != .gt)
  | 4 => a.test b false (fun o => o == .gt)
  | 5 => a.test b false (fun o => o != .lt)
  | 10 => (a.isNan || b.isNan, sigFlags a b)
  | _ => (!(a.isNan || b.isNan), sigFlags a b)
/-- A test on integer elements: codes 0 to 5 signed, 6 to 9 unsigned. -/
def intTest (size cond x y : Nat) : Bool :=
  let a := toSigned size x
  let b := toSigned size y
  match cond with
  | 0 => x == y | 1 => x != y | 2 => a < b | 3 => a ≤ b | 4 => b < a | 5 => b ≤ a
  | 6 => x < y | 7 => x ≤ y | 8 => y < x | _ => y ≤ x
/-- vclass: the index of the bit set (R175). -/
def classBit (t x : Nat) : Nat :=
  let f := typeFmt t
  match f.decode x with
  | .nan g => if g then 8 else 9
  | .inf neg => if neg then 0 else 7
  | .fin neg m _ =>
    if m = 0 then (if neg then 3 else 4)
    else if f.subnormal x then (if neg then 2 else 5) else if neg then 1 else 6

/-! ## Integers (R172) -/

/-- An integer operation of Table 10.2 on one element. -/
def intElement (m : Mnemonic) (size : Nat) (sat : Bool) (x y : Nat) : Nat :=
  let a := toSigned size x
  let b := toSigned size y
  match m with
  | .iadd => narrow size sat (a + b)
  | .isub => narrow size sat (a - b)
  | .imul => narrow size sat (a * b)
  | .imulh => ofSigned size ((a * b) / 2 ^ size)
  | .iand => x &&& y
  | .ior => x ||| y
  | .ixor => x ^^^ y
  | .ishl => (x <<< (y % size)) % 2 ^ size
  | .ishr => x >>> (y % size)
  | .isar => ofSigned size (a / 2 ^ (y % size))
  | .imin => if a < b then x else y
  | .imax => if a < b then y else x
  | .iminu => if x < y then x else y
  | .imaxu => if x < y then y else x
  | _ => 0
/-- idot4: the exact sum of z and four byte products. -/
def dot4 (sat : Bool) (x y z : Nat) : Nat :=
  let byte := fun (w j : Nat) => toSigned 8 (w >>> (8 * j) % 256)
  narrow 32 sat (toSigned 32 z + byte x 0 * byte y 0 + byte x 1 * byte y 1 + byte x 2 * byte y 2 + byte x 3 * byte y 3)

/-! ## Reductions and scans (R104, R105, R177) -/

/-- Identity of an operation (Table 10.5). -/
def reduceIdentity (t size op : Nat) : Nat :=
  if isFpType t then (if op = 0 then 2 ^ (size - 1) else (typeFmt t).canonical)
  else
    match op with
    | 1 => 2 ^ (size - 1) - 1 | 2 => 2 ^ (size - 1) | 3 => 2 ^ size - 1 | 5 => 2 ^ size - 1 | _ => 0
/-- One combination. -/
def reduceOp (t size op : Nat) (mode : BitVec 2) (sat : Bool) (x y : Nat) : Rounded :=
  if isFpType t then fpElement (if op = 0 then .fadd else if op = 1 then .fmin else .fmax) t mode false x y 0
  else
    plain (match op with
      | 0 => intElement .iadd size sat x y | 1 => intElement .imin size false x y
      | 2 => intElement .imax size false x y | 3 => intElement .iminu size false x y
      | 4 => intElement .imaxu size false x y | 5 => x &&& y | 6 => x ||| y | _ => x ^^^ y)
/-- One level of the pairwise tree, the flags of its nodes collected. -/
def pairUp (op : Nat → Nat → Rounded) (xs : List Nat) : List Rounded :=
  match xs with
  | x :: y :: r => op x y :: pairUp op r
  | _ => []
/-- The tree of R104: k levels. -/
def reduceTree (op : Nat → Nat → Rounded) (k : Nat) (xs : List Nat) (flags : BitVec 5) (tiny : Bool) : Rounded :=
  match k with
  | 0 => ⟨xs.headD 0, flags, tiny⟩
  | k + 1 =>
    let ys := pairUp op xs
    reduceTree op k (ys.map (fun r => r.code)) (ys.foldl (fun f r => f ||| r.flags) flags)
      (tiny || ys.any (fun r => r.tiny))
/-- The chain of R105 after the first element. -/
def scanChain (op : Nat → Nat → Rounded) (y : Nat) (xs : List Nat) : List Rounded :=
  match xs with
  | [] => []
  | x :: r => let z := op y x; z :: scanChain op z.code r
/-- The elements that enter a reduction or a scan. -/
def VecSlot.entering (v : VecSlot) : List Nat :=
  (List.range v.n).map (fun i => if v.active i then v.x i else reduceIdentity v.t v.size v.bField)
def VecSlot.combine (v : VecSlot) : Nat → Nat → Rounded := reduceOp v.t v.size v.bField v.mode v.sat
/-- vred: element 0 alone. -/
def VecSlot.reduce (v : VecSlot) : VecEffect :=
  elementsEffect v.size [some (reduceTree v.combine (Nat.log2 v.n) v.entering 0#5 false)]
/-- vscan: every active element. An element guarded off raises no flag (R99), so that the step of the chain at it, with the identity,
raises none; DEDUCED (log 32): a signalling NaN that meets no other step raises none at all. DESIGN CHOICE (log 52): R105 has
y[0] := x[0], and R96 gives the canonical NaN to an operation's result; element 0 is no operation's, and a NaN there is copied with
its own bits and raises nothing. -/
def VecSlot.scan (v : VecSlot) : VecEffect :=
  match v.entering with
  | [] => ⟨0, 0, 0#5, false⟩
  | x :: r =>
    let ys := plain x :: scanChain v.combine x r
    let e := elementsEffect v.size ((List.range v.n).zip ys |>.map (fun p => if v.active p.1 then some p.2 else none))
    { e with tiny := ys.any (fun r => r.tiny) }

/-! ## Conversion and packing (R178, R179) -/

/-- vcvt of one element from type t to type u. With SAT = 1 an infinity becomes the largest finite value of any destination but f32, a
wider one too: R98 speaks of a narrower format, R178 of none (DESIGN CHOICE, log 81). -/
def convertElement (t u : Nat) (mode : BitVec 2) (sat : Bool) (x : Nat) : Rounded :=
  let size := typeSize t
  let out := typeSize u
  let high : Int := 2 ^ (out - 1) - 1
  if isFpType t then
    let a := (typeFmt t).decode x
    let sub := replays t && (typeFmt t).subnormal x
    if t = u then ⟨if a.isNan then (typeFmt t).canonical else x, flagIf a.isSignalling flagInvalid, sub⟩
    else if isFpType u then
      let r := a.convert (typeFmt u) mode (sat && u != 0)
      { r with tiny := sub || (replays u && r.tiny) }
    else let r := a.toInt mode (-(2 ^ (out - 1))) high; ⟨ofSigned out r.1, r.2, sub⟩
  else if isFpType u then
    (Num.ofInt (toSigned size x)).convert (typeFmt u) mode (sat && u != 0)
  else plain (narrow out sat (toSigned size x))
def VecSlot.convert (v : VecSlot) : VecEffect :=
  let u := v.bField % 8
  elementsEffect (typeSize u) ((List.range v.n).map (fun i =>
    if v.active i then some (convertElement v.t u v.mode v.sat (v.x i)) else none))
/-- vpack: 2m elements at half size. -/
def VecSlot.pack (v : VecSlot) : VecEffect :=
  let half := v.size / 2
  elementsEffect half ((List.range (2 * v.n)).map (fun i =>
    if v.activeAt half i then
      some (plain (narrow half v.sat (toSigned v.size (if i < v.n then v.x i else v.y (i - v.n)))))
    else none))
/-- vunpk: m elements at double size. -/
def VecSlot.unpack (v : VecSlot) : VecEffect :=
  let twice := 2 * v.size
  let m := v.n / 2
  elementsEffect twice ((List.range m).map (fun i =>
    if v.activeAt twice i then
      let x := v.x (m * (v.bField % 2) + i)
      some (plain (if v.bField / 2 % 2 = 1 then x else ofSigned twice (toSigned v.size x)))
    else none))

/-! ## Quantisation (R107, R108, R180 to R183) -/

/-- Bits of an element of a format code: mxfp4, mxint4, mxint6, mxint8, e4m3, e5m2. -/
def quantBits (f : Nat) : Nat :=
  match f with
  | 0 => 4 | 1 => 4 | 2 => 6 | _ => 8
/-- Exponent of the largest normal value of a format code (R107). -/
def quantEmax (f : Nat) : Int :=
  match f with
  | 0 => 2 | 4 => 8 | 5 => 15 | _ => 0
/-- The floating-point format of a format code; none for MXINT. -/
def quantFmt (f : Nat) : Option Fmt :=
  match f with
  | 0 => some e2m1 | 4 => some e4m3 | 5 => some e5m2 | _ => none
/-- Encode one number against a scale (R108). Under the scale 0xFF the code 0 stands for NaN, so no code holds the value of any
other element (R94, R99). -/
def quantize (f c : Nat) (x : Num) : Rounded :=
  if c = 0xFF then ⟨0, if x.isNan then flagInvalid else flagInexact, false⟩
  else
    match x with
    | .nan _ => ⟨0, flagInvalid, false⟩
    | .inf neg =>
      match quantFmt f with
      | some g => ⟨g.maxCode + (if neg then g.signBit else 0), flagInexact, false⟩
      | none =>
        let m : Int := 2 ^ (quantBits f - 1) - 1
        ⟨ofSigned (quantBits f) (if neg then -m else m), flagInexact, false⟩
    | .fin neg m e =>
      let y : Int := e + 127 - c
      match quantFmt f with
      | some g =>
        let r := (Num.fin neg m y).convert g 0#2 true
        ⟨if r.code % g.signBit = 0 then 0 else r.code, r.flags &&& flagInexact, false⟩
      | none =>
        let k := quantBits f
        let top : Int := 2 ^ (k - 1) - 1
        let (n, inexact) := roundAt 0#2 neg m (y + k - 2) 0
        let i := signed neg n
        if top < i then ⟨ofSigned k top, flagInexact, false⟩
        else if i < -top then ⟨ofSigned k (-top), flagInexact, false⟩
        else ⟨ofSigned k i, flagIf inexact flagInexact, false⟩
/-- The value of a code of a format (Tables 6.1 and 6.2). -/
def quantValue (f code : Nat) : Num :=
  match quantFmt f with
  | some g => g.decode code
  | none => let i := toSigned (quantBits f) code; .fin (i < 0) i.natAbs (2 - quantBits f)
/-- vqnt: all 1,024 bits, codes from byte 0, scales from byte 120 (R181). -/
def VecSlot.quant (v : VecSlot) (scale : Nat → Nat) : VecEffect :=
  let f := v.bField % 8
  let bits := quantBits f
  let rs := (List.range v.n).map (fun i =>
    if v.active i then
      let r := quantize f (scale (i / 32)) ((typeFmt v.t).decode (v.x i))
      { r with tiny := (typeFmt v.t).subnormal (v.x i) }
    else plain 0)
  let blocks := (v.n + 31) / 32
  let scales := packElems 8 ((List.range blocks).map scale) <<< 960
  { mask := 2 ^ 1024 - 1, value := packElems bits (rs.map (fun r => r.code)) + scales
    flags := rs.foldl (fun x r => x ||| r.flags) 0#5, tiny := rs.any (fun r => r.tiny) }
/-- vdeq: the value of each code under its block's scale (R182). -/
def VecSlot.dequant (v : VecSlot) : VecEffect :=
  let f := v.bField % 8
  v.each (fun i =>
    let s := elemAt v.a 8 (120 + i / 32)
    match quantValue f (elemAt v.a (quantBits f) i) with
    | .nan _ => plain (typeFmt v.t).canonical
    | .inf neg => plain (if s = 0xFF then (typeFmt v.t).canonical else (typeFmt v.t).infinity neg)
    | .fin neg m e =>
      if s = 0xFF then plain (typeFmt v.t).canonical else (typeFmt v.t).round 0#2 neg m (e + s - 127))
/-- The shared exponent of one block (Table 6.5). -/
def blockExponent (f : Nat) (xs : List Num) : Nat :=
  if xs.any (fun x => x.isNan || x.isInf) then 0xFF
  else
    match xs.filter (fun x => !x.isZero) with
    | [] => 0
    | x :: r =>
      let top := r.foldl (fun e y => max e y.exponent) x.exponent
      (max 0 (min (top - quantEmax f + 127) 254)).toNat
/-- The active elements of block j. -/
def VecSlot.block (v : VecSlot) (j : Nat) : List Num :=
  ((List.range v.n).filter (fun i => i / 32 = j && v.active i)).map (fun i => (typeFmt v.t).decode (v.x i))
/-- rmm after the active elements (R107). -/
def runningMax (rmm : Nat) (xs : List Num) : Nat :=
  xs.foldl (fun m x =>
    if x.isNan then m else (((binary32.decode m).minMax x.abs true).round binary32 0#2).code) rmm

/-! ## The meanings -/

/-- A floating-point operation on each active element, counted in C08 or C09 (R185). -/
def State.vecFp (s : State) (m : Mnemonic) (o : VecOps) (weight : Nat) : State :=
  let v := s.vecSlot o
  s.vecWrite v.d 4 (v.each (fun i => fpElement m v.t v.mode v.nb (v.x i) (v.y i) (v.z i))) (elementCounter v.t)
    (weight * v.actives)
/-- An integer operation on each active element, counted in C10. -/
def State.vecInt (s : State) (m : Mnemonic) (o : VecOps) : State :=
  let v := s.vecSlot o
  s.vecWrite v.d 2 (v.each (fun i => plain (intElement m v.size v.sat (v.x i) (v.y i)))) 10 v.actives
/-- A move of bits to each active element, not counted. -/
def State.vecMove (s : State) (o : VecOps) (lat : Nat) (f : VecSlot → Nat → Nat) : State :=
  let v := s.vecSlot o
  s.vecWrite v.d lat (v.each (fun i => plain (f v i))) 10 0
/-- A predicate instruction (R184). -/
def State.predOp (s : State) (o : VecOps) (f : QReg → QReg → QReg) : State :=
  let v := s.vecSlot o
  let a := s.rQ (o.a.toNat % 32)
  let b := s.rQ (8 * v.cl + o.b.toNat)
  let width : QReg := BitVec.ofNat 128 (2 ^ (v.width / 8) - 1)
  let m := (if v.gn then ~~~v.guard else v.guard) &&& width
  s.result (.q (8 * v.cl + o.d.toNat)) 2 (m.zeroExtend 1024) ((f a b).zeroExtend 1024)

/-- fadd (Table 10.1). -/
def execFadd (o : VecOps) (s : State) : Host.Outcome State Fault Refusal :=
  .next (s.vecFp .fadd o 1)
/-- fsub (Table 10.1). -/
def execFsub (o : VecOps) (s : State) : Host.Outcome State Fault Refusal :=
  .next (s.vecFp .fsub o 1)
/-- fmul (Table 10.1). -/
def execFmul (o : VecOps) (s : State) : Host.Outcome State Fault Refusal :=
  .next (s.vecFp .fmul o 1)
/-- fma (Table 10.1). -/
def execFma (o : VecOps) (s : State) : Host.Outcome State Fault Refusal :=
  .next (s.vecFp .fma o 2)
/-- fmin (Table 10.1). -/
def execFmin (o : VecOps) (s : State) : Host.Outcome State Fault Refusal :=
  .next (s.vecFp .fmin o 1)
/-- fmax (Table 10.1). -/
def execFmax (o : VecOps) (s : State) : Host.Outcome State Fault Refusal :=
  .next (s.vecFp .fmax o 1)
/-- vrnd (Table 10.1). -/
def execVrnd (o : VecOps) (s : State) : Host.Outcome State Fault Refusal :=
  .next (s.vecFp .vrnd o 1)
/-- fabs: the sign bit cleared, no flag (R96). -/
def execFabs (o : VecOps) (s : State) : Host.Outcome State Fault Refusal :=
  .next (s.vecMove o 4 (fun v i => v.x i % 2 ^ (v.size - 1)))
/-- fneg: the sign bit inverted, no flag (R96). -/
def execFneg (o : VecOps) (s : State) : Host.Outcome State Fault Refusal :=
  .next (s.vecMove o 4 (fun v i => v.x i ^^^ 2 ^ (v.size - 1)))
/-- iadd (Table 10.2). -/
def execIadd (o : VecOps) (s : State) : Host.Outcome State Fault Refusal :=
  .next (s.vecInt .iadd o)
/-- isub (Table 10.2). -/
def execIsub (o : VecOps) (s : State) : Host.Outcome State Fault Refusal :=
  .next (s.vecInt .isub o)
/-- imul (Table 10.2). -/
def execImul (o : VecOps) (s : State) : Host.Outcome State Fault Refusal :=
  .next (s.vecInt .imul o)
/-- imulh (Table 10.2). -/
def execImulh (o : VecOps) (s : State) : Host.Outcome State Fault Refusal :=
  .next (s.vecInt .imulh o)
/-- iand (Table 10.2). -/
def execIand (o : VecOps) (s : State) : Host.Outcome State Fault Refusal :=
  .next (s.vecInt .iand o)
/-- ior (Table 10.2). -/
def execIor (o : VecOps) (s : State) : Host.Outcome State Fault Refusal :=
  .next (s.vecInt .ior o)
/-- ixor (Table 10.2). -/
def execIxor (o : VecOps) (s : State) : Host.Outcome State Fault Refusal :=
  .next (s.vecInt .ixor o)
/-- ishl (Table 10.2). -/
def execIshl (o : VecOps) (s : State) : Host.Outcome State Fault Refusal :=
  .next (s.vecInt .ishl o)
/-- ishr (Table 10.2). -/
def execIshr (o : VecOps) (s : State) : Host.Outcome State Fault Refusal :=
  .next (s.vecInt .ishr o)
/-- isar (Table 10.2). -/
def execIsar (o : VecOps) (s : State) : Host.Outcome State Fault Refusal :=
  .next (s.vecInt .isar o)
/-- imin (Table 10.2). -/
def execImin (o : VecOps) (s : State) : Host.Outcome State Fault Refusal :=
  .next (s.vecInt .imin o)
/-- imax (Table 10.2). -/
def execImax (o : VecOps) (s : State) : Host.Outcome State Fault Refusal :=
  .next (s.vecInt .imax o)
/-- iminu (Table 10.2). -/
def execIminu (o : VecOps) (s : State) : Host.Outcome State Fault Refusal :=
  .next (s.vecInt .iminu o)
/-- imaxu (Table 10.2). -/
def execImaxu (o : VecOps) (s : State) : Host.Outcome State Fault Refusal :=
  .next (s.vecInt .imaxu o)
/-- iaddi (Table 10.2). -/
def execIaddi (o : VecOps) (s : State) : Host.Outcome State Fault Refusal :=
  let v := s.vecSlot o
  .next (s.vecWrite v.d 2 (v.each (fun i => plain (narrow v.size v.sat (toSigned v.size (v.x i) + v.imm)))) 10 v.actives)
/-- idot4: 8 counted for each active element (R185). -/
def execIdot4 (o : VecOps) (s : State) : Host.Outcome State Fault Refusal :=
  let v := s.vecSlot o
  .next (s.vecWrite v.d 2 (v.each (fun i => plain (dot4 v.sat (v.x i) (v.y i) (v.z i)))) 10 (8 * v.actives))
/-- The bits of vcmp: results and mask by byte position, flags, and whether it meets the subnormal range (R173). -/
def VecSlot.compare (v : VecSlot) : VecEffect :=
  let bytes := v.size / 8
  elementsEffect bytes ((List.range v.n).map (fun i =>
    if v.active i then
      let r := if isFpType v.t then fpTest v.t v.cond (v.x i) (v.y i)
               else (intTest v.size v.cond (v.x i) (v.y i), 0#5)
      some ⟨if r.1 then 2 ^ bytes - 1 else 0, r.2,
        replays v.t && ((typeFmt v.t).subnormal (v.x i) || (typeFmt v.t).subnormal (v.y i))⟩
    else none))
/-- vcmp: every bit position of each active element (R173). -/
def execVcmp (o : VecOps) (s : State) : Host.Outcome State Fault Refusal :=
  let v := s.vecSlot o
  let e := v.compare
  .next ((s.raise e.flags).result (.q (8 * v.cl + o.d.toNat)) 2 (BitVec.ofNat 1024 e.mask) (BitVec.ofNat 1024 e.value))
/-- vsel: G selects, and every element of the width is written (R174). -/
def execVsel (o : VecOps) (s : State) : Host.Outcome State Fault Refusal :=
  let v := s.vecSlot o
  .next (s.vecWrite v.d 2 (elementsEffect v.size ((List.range v.n).map (fun i =>
    some (plain (if v.active i then v.x i else v.y i))))) 10 0)
/-- vclass (R175). -/
def execVclass (o : VecOps) (s : State) : Host.Outcome State Fault Refusal :=
  .next (s.vecMove o 2 (fun v i => 2 ^ classBit v.t (v.x i)))
/-- vmov (Table 10.4). -/
def execVmov (o : VecOps) (s : State) : Host.Outcome State Fault Refusal :=
  .next (s.vecMove o 2 (fun v i => v.x i))
/-- vbcs (Table 10.4). -/
def execVbcs (o : VecOps) (s : State) : Host.Outcome State Fault Refusal :=
  .next (s.vecMove o 2 (fun v _ => v.scalar.toNat))
/-- vidx (Table 10.4). -/
def execVidx (o : VecOps) (s : State) : Host.Outcome State Fault Refusal :=
  .next (s.vecMove o 2 (fun v i => ofSigned v.size (v.imm + i)))
/-- vshuf (Table 10.4). -/
def execVshuf (o : VecOps) (s : State) : Host.Outcome State Fault Refusal :=
  .next (s.vecMove o 3 (fun v i => v.x (v.y i % v.n)))
/-- vrot (Table 10.4). -/
def execVrot (o : VecOps) (s : State) : Host.Outcome State Fault Refusal :=
  .next (s.vecMove o 3 (fun v i => v.x (((i : Int) + v.imm) % v.n).toNat))
/-- vcat (Table 10.4). -/
def execVcat (o : VecOps) (s : State) : Host.Outcome State Fault Refusal :=
  .next (s.vecMove o 3 (fun v i => if i < v.n / 2 then v.x i else v.y (i - v.n / 2)))
/-- vput: one element, if it is active (Table 10.4). -/
def execVput (o : VecOps) (s : State) : Host.Outcome State Fault Refusal :=
  let v := s.vecSlot o
  let k := (v.imm % v.n).toNat
  .next (s.vecWrite v.d 3 (elementsEffect v.size ((List.range v.n).map (fun i =>
    if i = k && v.active i then some (plain v.scalar.toNat) else none))) 10 0)
/-- vred (R104, R177). -/
def execVred (o : VecOps) (s : State) : Host.Outcome State Fault Refusal :=
  let v := s.vecSlot o
  .next (s.vecWrite v.d 6 v.reduce (elementCounter v.t) v.actives)
/-- vscan (R105, R177). -/
def execVscan (o : VecOps) (s : State) : Host.Outcome State Fault Refusal :=
  let v := s.vecSlot o
  .next (s.vecWrite v.d 8 v.scan (elementCounter v.t) v.actives)
/-- vcvt (R178). -/
def execVcvt (o : VecOps) (s : State) : Host.Outcome State Fault Refusal :=
  let v := s.vecSlot o
  .next (s.vecWrite v.d 4 v.convert 10 0)
/-- vpack (Table 10.6). -/
def execVpack (o : VecOps) (s : State) : Host.Outcome State Fault Refusal :=
  let v := s.vecSlot o
  .next (s.vecWrite v.d 3 v.pack 10 0)
/-- vunpk (Table 10.6). -/
def execVunpk (o : VecOps) (s : State) : Host.Outcome State Fault Refusal :=
  let v := s.vecSlot o
  .next (s.vecWrite v.d 3 v.unpack 10 0)
/-- The scale latch entry of block j, as a slot reads it. -/
def State.latch (s : State) (j : Nat) : Nat := ((s.me.view (.sl j)).extractLsb' 0 8).toNat
/-- vqnt (R181). -/
def execVqnt (o : VecOps) (s : State) : Host.Outcome State Fault Refusal :=
  let v := s.vecSlot o
  .next (s.vecWrite v.d 4 (v.quant s.latch) 10 0)
/-- vdeq (R182). -/
def execVdeq (o : VecOps) (s : State) : Host.Outcome State Fault Refusal :=
  let v := s.vecSlot o
  .next (s.vecWrite v.d 4 v.dequant 10 0)
/-- The shared exponents of the blocks of a register, from block j on (R107). -/
def State.writeLatches (s : State) (v : VecSlot) (js : List Nat) : State :=
  match js with
  | [] => s
  | j :: r =>
    (s.result (.sl j) 3 (BitVec.allOnes 1024) (BitVec.ofNat 1024 (blockExponent (v.bField % 8) (v.block j)))).writeLatches v r
/-- vmaxe: sl three steps later, rmm at the next (R107, R180). DESIGN CHOICE (log 53): R96 has an operation raise invalid for a
signalling NaN, and R107 and R180 name no flag of vmaxe; it raises none. -/
def execVmaxe (o : VecOps) (s : State) : Host.Outcome State Fault Refusal :=
  let v := s.vecSlot o
  let js := List.range ((v.n + 31) / 32)
  let xs := js.flatMap v.block
  let s1 := s.writeLatches v js
  let old := s.me.view .rmm
  let seen := old.getLsbD 32 || xs.any (fun x => x.isNan)
  let new := runningMax (old.extractLsb' 0 32).toNat xs
  .next (if xs = [] then s1
         else s1.result .rmm 1 (BitVec.allOnes 1024) (BitVec.ofNat 1024 (new + (if seen then 2 ^ 32 else 0))))
/-- vrmm: the guard is ignored (R183). -/
def execVrmm (o : VecOps) (s : State) : Host.Outcome State Fault Refusal :=
  let v := s.vecSlot o
  let old := s.me.view .rmm
  let s1 := s.result (.v v.d) 2 (BitVec.ofNat 1024 (2 ^ v.width - 1)) (BitVec.ofNat 1024 (old.toNat % 2 ^ 33))
  .next (if v.bField % 2 = 1 then s1.result .rmm 1 (BitVec.allOnes 1024) 0#1024 else s1)
/-- pand (Table 10.7). -/
def execPand (o : VecOps) (s : State) : Host.Outcome State Fault Refusal :=
  .next (s.predOp o (fun a b => a &&& b))
/-- por (Table 10.7). -/
def execPor (o : VecOps) (s : State) : Host.Outcome State Fault Refusal :=
  .next (s.predOp o (fun a b => a ||| b))
/-- pxor (Table 10.7). -/
def execPxor (o : VecOps) (s : State) : Host.Outcome State Fault Refusal :=
  .next (s.predOp o (fun a b => a ^^^ b))
/-- pnot (Table 10.7). -/
def execPnot (o : VecOps) (s : State) : Host.Outcome State Fault Refusal :=
  .next (s.predOp o (fun a _ => ~~~a))
/-- pmov (Table 10.7). -/
def execPmov (o : VecOps) (s : State) : Host.Outcome State Fault Refusal :=
  .next (s.predOp o (fun a _ => a))

/-! ## Replay (R100) -/

/-- Does a vector slot meet the subnormal range, so that its pick replays? DESIGN CHOICE (log 84): fabs and fneg, which only move bits,
never do; vmaxe does as a comparison, for a subnormal element or a subnormal rmm beside an element that is a number. -/
def State.vecReplays (s : State) (m : Mnemonic) (o : VecOps) : Bool :=
  let v := s.vecSlot o
  match m with
  | .fadd | .fsub | .fmul | .fma | .fmin | .fmax | .vrnd =>
    (v.each (fun i => fpElement m v.t v.mode v.nb (v.x i) (v.y i) (v.z i))).tiny
  | .vred => isFpType v.t && v.reduce.tiny
  | .vscan => isFpType v.t && v.scan.tiny
  | .vcvt => v.convert.tiny
  | .vcmp => v.compare.tiny
  | .vqnt => (v.quant s.latch).tiny
  | .vdeq => v.dequant.tiny
  | .vmaxe =>
    let rmm := binary32.subnormal ((s.me.view .rmm).extractLsb' 0 32).toNat
    (List.range v.n).any (fun i =>
      v.active i && ((typeFmt v.t).subnormal (v.x i) || (rmm && !((typeFmt v.t).decode (v.x i)).isNan)))
  | _ => false

end Sys2Proof.Machine
end

