-- ==== Sys2Proof/Machine/Jacquard.lean ====
section
/-!
DEFINITION. The Jacquard: the jq slots, the diagram store over its bound segments, and each command's units (spec/13 R232
to R249, spec/25 R364 to R367). A unit runs on a copy of the store and is committed whole: a unit that stops, or in which Mk raises
a collection request, leaves no effect (R55, R248; log 20).
-/

namespace Sys2Proof.Machine

/-! ## Issue (R238) -/

/-- Issue of a jq command: its registers are read at issue, and it always sets its token. -/
def State.jacquard (s : State) (m : Mnemonic) (o : JqOps) (args : List DWord) : State :=
  let c := { s.newCmd m args (some o.tk.toNat) o.eng 1 with fn := o.fn.toNat, dest := o.d.toNat }
  s.engineSlot .jacquard o.eng.wm none 0#64 c
/-- A command that reads s[A], s[B] and s[D]. -/
def State.jacquardAbd (s : State) (m : Mnemonic) (o : JqOps) : State :=
  s.jacquard m o [s.rS o.a, s.rS o.b, s.rS o.d]

/-- JCFG: reads s[A] to s[A + 4], s[B] and s[B + 1]. -/
def execJcfg (o : JqOps) (s : State) : Host.Outcome State Fault Refusal :=
  .next (s.jacquard .jcfg o ((List.range 5).map (fun i => s.rS (o.a + BitVec.ofNat 6 i)) ++
    [s.rS o.b, s.rS (o.b + 1#6)]))
/-- JORD. -/
def execJord (o : JqOps) (s : State) : Host.Outcome State Fault Refusal := .next (s.jacquardAbd .jord o)
/-- JVAR. -/
def execJvar (o : JqOps) (s : State) : Host.Outcome State Fault Refusal := .next (s.jacquardAbd .jvar o)
/-- JMK. -/
def execJmk (o : JqOps) (s : State) : Host.Outcome State Fault Refusal := .next (s.jacquardAbd .jmk o)
/-- JAPP. -/
def execJapp (o : JqOps) (s : State) : Host.Outcome State Fault Refusal := .next (s.jacquardAbd .japp o)
/-- JITE: h3 is s[D] as read at issue. -/
def execJite (o : JqOps) (s : State) : Host.Outcome State Fault Refusal := .next (s.jacquardAbd .jite o)
/-- JRES. -/
def execJres (o : JqOps) (s : State) : Host.Outcome State Fault Refusal := .next (s.jacquardAbd .jres o)
/-- JEXQ. -/
def execJexq (o : JqOps) (s : State) : Host.Outcome State Fault Refusal := .next (s.jacquardAbd .jexq o)
/-- JCNT. -/
def execJcnt (o : JqOps) (s : State) : Host.Outcome State Fault Refusal := .next (s.jacquardAbd .jcnt o)
/-- JSAT. -/
def execJsat (o : JqOps) (s : State) : Host.Outcome State Fault Refusal := .next (s.jacquardAbd .jsat o)
/-- JEXP. -/
def execJexp (o : JqOps) (s : State) : Host.Outcome State Fault Refusal := .next (s.jacquardAbd .jexp o)
/-- JREF. -/
def execJref (o : JqOps) (s : State) : Host.Outcome State Fault Refusal := .next (s.jacquardAbd .jref o)
/-- JDRF. -/
def execJdrf (o : JqOps) (s : State) : Host.Outcome State Fault Refusal := .next (s.jacquardAbd .jdrf o)
/-- JGC. -/
def execJgc (o : JqOps) (s : State) : Host.Outcome State Fault Refusal := .next (s.jacquardAbd .jgc o)
/-- JSTAT. -/
def execJstat (o : JqOps) (s : State) : Host.Outcome State Fault Refusal := .next (s.jacquardAbd .jstat o)
/-- JCLR. -/
def execJclr (o : JqOps) (s : State) : Host.Outcome State Fault Refusal := .next (s.jacquardAbd .jclr o)

/-! ## The store (R232 to R237) -/

/-- A copy of the bound segments, with what a unit has done to them. Segments count 0 node, 1 unique, 2 cache, 3 weight,
4 order. -/
structure JStore where
  mem : List Memory
  capacity : Nat
  buckets : Nat
  entries : Nat
  nv : Nat
  levels : List Nat
  vars : List Nat
  reads : List (Nat × Nat)            -- (segment, line)
  writes : List (Nat × Nat × Nat)     -- (segment, offset, bytes), each within a line
  wiped : List Nat                    -- segments written whole
  visits : Nat
  hits : Nat
  out : List (Nat × Byte × Byte)      -- (offset, mask, value) at the destination
  notes : List (Nat × Nat)            -- records of STOP 3 and OUTC 3: code and operand
deriving DecidableEq, Repr
/-- Why a unit stops: a fault, or a collection request; and the lines that it and its chunk have read by then (R369). -/
inductive JStop where
  | fault (code operand : Nat) (reads : List (Nat × Nat))
  | collect (reason : Nat) (reads : List (Nat × Nat))
deriving DecidableEq, Repr
/-- A unit's actions. -/
abbrev JM := StateT JStore (Except JStop)

/-- Read n bytes of a bound segment. -/
def jget (seg off n : Nat) : JM Nat := fun x =>
  .ok ((x.mem.getD seg []).readNat off n, { x with reads := (seg, off / 64) :: x.reads })
/-- Write n bytes of a bound segment. -/
def jput (seg off n v : Nat) : JM Unit := fun x =>
  .ok ((), { x with mem := x.mem.modify seg (fun m => m.writeNat off n v), writes := (seg, off, n) :: x.writes })
/-- Zero a bound segment whole. -/
def jwipe (seg : Nat) : JM Unit := fun x =>
  .ok ((), { x with mem := x.mem.set seg [], wiped := seg :: x.wiped })
/-- Stop with a fault. -/
def jfail {α : Type} (code operand : Nat) : JM α := fun x => .error (.fault code operand x.reads)
/-- What a unit had read when it stopped. -/
def JStop.reads (e : JStop) : List (Nat × Nat) :=
  match e with
  | .fault _ _ rs => rs
  | .collect _ rs => rs
/-- nv, read from node 1 (R233). -/
def jnv : JM Nat := do
  let _ ← jget 0 24 4
  let x ← get
  pure x.nv
/-- Fields of a node (Table 13.1). -/
def jvarOf (n : Nat) : JM Nat := jget 0 (16 * n + 14) 2
def jrefOf (n : Nat) : JM Nat := jget 0 (16 * n + 12) 2
def jloOf (n : Nat) : JM Nat := jget 0 (16 * n + 8) 4
def jhiOf (n : Nat) : JM Nat := jget 0 (16 * n + 4) 4
def jlinkOf (n : Nat) : JM Nat := jget 0 (16 * n) 4
def jsetRef (n v : Nat) : JM Unit := jput 0 (16 * n + 12) 2 v
def jsetLo (n v : Nat) : JM Unit := jput 0 (16 * n + 8) 4 v
def jsetHi (n v : Nat) : JM Unit := jput 0 (16 * n + 4) 4 v
def jsetLink (n v : Nat) : JM Unit := jput 0 (16 * n) 4 v
/-- Write a node whole. -/
def jsetNode (n var ref lo hi link : Nat) : JM Unit :=
  jput 0 (16 * n) 16 ((var % 2 ^ 16) * 2 ^ 112 + (ref % 2 ^ 16) * 2 ^ 96 + (lo % 2 ^ 32) * 2 ^ 64 + (hi % 2 ^ 32) * 2 ^ 32 +
    link % 2 ^ 32)
/-- Level of a node: nv for a terminal (R233). -/
def jlevel (n : Nat) : JM Nat := do
  let x ← get
  if n < 2 then jnv
  else
    let v ← jvarOf n
    pure (x.levels.getD v x.nv)
/-- Is an id a terminal or an allocated node? -/
def jalive (n : Nat) : JM Bool := do
  if n < 2 then pure true
  else
    let next ← jloOf 0
    let x ← get
    if next ≤ n || x.capacity ≤ n then pure false
    else
      let v ← jvarOf n
      pure (v ≠ 0xFFFE)
/-- A child in a recursion or a walk, checked (0x704). -/
def jkid (n : Nat) (high : Bool) : JM Nat := do
  let c ← if high then jhiOf n else jloOf n
  let a ← jalive c
  if !a then jfail 0x704 c
  else
    let x ← get
    let v ← jvarOf c
    let lp ← jlevel n
    let lc ← jlevel c
    if (2 ≤ c && x.nv ≤ v) || lc ≤ lp then jfail 0x704 c else pure c
/-- The nonzero child of a node of a cube. -/
def jnonzero (n : Nat) : JM Nat := do
  let h ← jkid n true
  if h ≠ 0 then pure h else jkid n false
/-- Lo_v and Hi_v (R244). -/
def jcofactor (n v : Nat) (high : Bool) : JM Nat := do
  if n < 2 then pure n
  else
    let w ← jvarOf n
    if w = v then jkid n high else pure n

/-- The hash of R235 and R237. -/
def jhash (a b c k : Nat) : Nat := (a * 0x9E3779B1 + b * 0x85EBCA77 + c * 0xC2B2AE3D + k * 0x27D4EB2F) % 2 ^ 32
/-- The place of a hash in a table of a power of two of entries. -/
def jslot (h entries : Nat) : Nat := h / 2 ^ (32 - entries.log2)
/-- IncRef: 0xFFFF is sticky. -/
def jincRef (c : Nat) : JM Unit := do
  let r ← jrefOf c
  if r = 0xFFFF then pure () else jsetRef c (r + 1)
/-- The node of a chain with the given variable and children. -/
def jchain (fuel n v lo hi : Nat) : JM (Option Nat) := do
  match fuel with
  | 0 => pure none
  | fuel + 1 =>
    if n = 0 then pure none
    else
      let w ← jvarOf n
      let l ← jloOf n
      let h ← jhiOf n
      if w = v && l = lo && h = hi then pure (some n)
      else
        let k ← jlinkOf n
        jchain fuel k v lo hi
/-- Mk (R236). -/
def jmake (v lo hi : Nat) : JM Nat := do
  if lo = hi then pure lo
  else
    let x ← get
    let b := jslot (jhash v lo hi 0) x.buckets
    let head ← jget 1 (4 * b) 4
    let found ← jchain (x.capacity + 1) head v lo hi
    match found with
    | some n => pure n
    | none =>
      let next ← jloOf 0
      let free ← jhiOf 0
      let live ← jlinkOf 0
      if free = 0 && x.capacity ≤ next then fun x => .error (.collect 1 x.reads)
      else if 4 * x.buckets < live + 1 then fun x => .error (.collect 2 x.reads)
      else
        let n := if free ≠ 0 then free else next
        if free ≠ 0 then
          let k ← jlinkOf free
          jsetHi 0 k
        else jsetLo 0 (next + 1)
        jsetNode n v 0 lo hi head
        jput 1 (4 * b) 4 n
        jsetLink 0 (live + 1)
        jincRef lo
        jincRef hi
        pure n
/-- Byte offset of the cache entry of a key. -/
def jentry (x : JStore) (op fn f g h : Nat) : Nat := 32 * jslot (jhash f g h (op * 65536 + fn * 4096)) x.entries
/-- The upper 128 bits of a key's entry (Table 13.4). -/
def jkey (op fn f g h : Nat) : Nat :=
  (op * 2 ^ 24 + fn * 2 ^ 20) * 2 ^ 96 + (f % 2 ^ 32) * 2 ^ 64 + (g % 2 ^ 32) * 2 ^ 32 + h % 2 ^ 32
/-- Does the upper half of an entry hold a key? Bits 231:224 of the entry are no part of it (R237). -/
def jmatches (k key : Nat) : Bool := k % 2 ^ 96 = key % 2 ^ 96 && k / 2 ^ 104 = key / 2 ^ 104
/-- CacheLookup. -/
def jlookup (op fn f g h : Nat) : JM (Option Nat) := do
  let x ← get
  let o := jentry x op fn f g h
  let k ← jget 2 (o + 16) 16
  if jmatches k (jkey op fn f g h) then
    let r ← jget 2 (o + 8) 8
    pure (some r)
  else pure none
/-- CacheInsert. -/
def jinsert (op fn f g h r : Nat) : JM Unit := do
  let x ← get
  let o := jentry x op fn f g h
  jput 2 o 32 (jkey op fn f g h * 2 ^ 128 + (r % 2 ^ 64) * 2 ^ 64)

/-! ## The recursion (R244, R245) -/

/-- Terminal test of a recursion, and its result. -/
def jterminal (op fn f g h : Nat) : Option Nat :=
  match op with
  | 5 => if f < 2 && g < 2 then some (fn / 2 ^ (2 * f + g) % 2) else none
  | 6 => if f = 1 then some g else if f = 0 then some h else none
  | 9 => if f = 0 then some 0 else if f = 1 then some 0x3FF0000000000000 else none
  | _ => if f < 2 || g = 1 then some f else none
/-- The node of least level of a list. -/
def jtop (ns : List Nat) : JM Nat := do
  match ns with
  | [] => pure 0
  | n :: rest =>
    let m ← jtop rest
    let a ← jlevel n
    let b ← jlevel m
    pure (if a ≤ b && 2 ≤ n then n else m)
/-- The cube of jres or jexq, down to the level of f. -/
def jcubeTo (fuel op c f : Nat) : JM Nat := do
  match fuel with
  | 0 => pure c
  | fuel + 1 =>
    let a ← jlevel c
    let b ← jlevel f
    if a < b then
      let d ← if op = 7 then jnonzero c else jkid c true
      jcubeTo fuel op d f
    else pure c
/-- A visit: what it does, as the frames to run (R244). -/
def jvisit (op f g h : Nat) : JM (List JFrame) := do
  modify (fun x => { x with visits := x.visits + 1 })
  match op with
  | 9 =>
    let l ← jkid f false
    let _ ← jkid f true
    pure [.call 9 l 0 0, .countHigh f]
  | 5 | 6 =>
    let t ← jtop (if op = 5 then [f, g] else [f, g, h])
    let v ← jvarOf t
    let fl ← jcofactor f v false
    let gl ← jcofactor g v false
    let hl ← if op = 6 then jcofactor h v false else pure 0
    let fh ← jcofactor f v true
    let gh ← jcofactor g v true
    let hh ← if op = 6 then jcofactor h v true else pure 0
    pure [.call op fl gl hl, .high op v f g h fh gh hh false]
  | _ =>
    let x ← get
    let c ← jcubeTo (x.nv + 1) op g f
    let v ← jvarOf f
    let w ← jvarOf c
    let fl ← jkid f false
    let fh ← jkid f true
    if 2 ≤ c && w = v then
      if op = 7 then
        let ch ← jkid c true
        let next ← jnonzero c
        pure [.call 7 (if ch ≠ 0 then fh else fl) next 0, .insert 7 f g 0]
      else
        let next ← jkid c true
        pure [.call 8 fl next 0, .high 8 v f g 0 fh next 0 true]
    else pure [.call op fl c 0, .high op v f g 0 fh c 0 false]
/-- binary64 sums and products, rounded to nearest even. -/
def radd (a b : Nat) : Nat := (((binary64.decode a).add (binary64.decode b) 0#2).round binary64 0#2).code
def rmul (a b : Nat) : Nat := (((binary64.decode a).mul (binary64.decode b)).round binary64 0#2).code
/-- Weight 0 or 1 of a variable. -/
def jweight (u : Nat) (one : Bool) : JM Nat := jget 3 (16 * u + (if one then 8 else 0)) 8
/-- Skip(x, a, a + k) (R245). -/
def jskip (k a x : Nat) : JM Nat := do
  match k with
  | 0 => pure x
  | k + 1 =>
    let st ← get
    let u := st.vars.getD a 0
    let w0 ← jweight u false
    let w1 ← jweight u true
    jskip k (a + 1) (rmul x (radd w0 w1))
/-- One branch of Cnt at a node: its weight times the skipped count of a child. -/
def jbranch (n : Nat) (one : Bool) (count : Nat) : JM Nat := do
  let c ← if one then jhiOf n else jloOf n
  let l ← jlevel n
  let lc ← jlevel c
  let x ← jskip (lc - (l + 1)) (l + 1) count
  let u ← jvarOf n
  let w ← jweight u one
  pure (rmul w x)
/-- Run frames with the last result, until the next visit after the first, or the end (R240). -/
def jrun (fuel fn : Nat) (visited : Bool) (st : List JFrame) (acc : Nat) : JM (List JFrame × Nat) := do
  match fuel with
  | 0 => pure (st, acc)
  | fuel + 1 =>
    match st with
    | [] => pure ([], acc)
    | .call op f g h :: rest =>
      match jterminal op fn f g h with
      | some r => jrun fuel fn visited rest r
      | none =>
        let hit ← jlookup op fn f g h
        match hit with
        | some r =>
          modify (fun x => { x with hits := x.hits + 1 })
          jrun fuel fn visited rest (if op = 9 then r else r % 2 ^ 32)
        | none =>
          if visited then pure (st, acc)
          else
            let fr ← jvisit op f g h
            jrun fuel fn true (fr ++ rest) acc
    | .high op v f g h hf hg hh app :: rest =>
      jrun fuel fn visited (.call op hf hg hh :: .join op v f g h acc app :: rest) acc
    | .join op v f g h low app :: rest =>
      if app then jrun fuel fn visited (.call 5 low acc 0 :: .insert op f g h :: rest) acc
      else
        let r ← jmake v low acc
        jinsert op fn f g h r
        jrun fuel fn visited rest r
    | .insert op f g h :: rest =>
      jinsert op fn f g h acc
      jrun fuel fn visited rest acc
    | .countHigh n :: rest =>
      let x ← jbranch n false acc
      let c ← jkid n true
      jrun fuel fn visited (.call 9 c 0 0 :: .countJoin n (BitVec.ofNat 64 x) :: rest) acc
    | .countJoin n x :: rest =>
      let y ← jbranch n true acc
      let r := radd x.toNat y
      jinsert 9 0 n 0 0 r
      jrun fuel fn visited rest r

/-! ## Expansion, witnesses, collection (R246, R247) -/

/-- The walk of jexp at assignment i: the terminal reached. -/
def jwalk (fuel i n x : Nat) : JM Nat := do
  match fuel with
  | 0 => pure 0
  | fuel + 1 =>
    if x < 2 then pure x
    else
      let v ← jvarOf x
      if n ≤ v then jfail 0x705 v
      else
        modify (fun y => { y with visits := y.visits + 1 })
        let c ← jkid x (i / 2 ^ v % 2 = 1)
        jwalk fuel i n c
/-- Write bits of a destination byte. -/
def jout (off : Nat) (mask value : Byte) : JM Unit := modify (fun x => { x with out := x.out ++ [(off, mask, value)] })
/-- Take a node out of its chain. -/
def junlink (fuel p n link : Nat) : JM Unit := do
  match fuel with
  | 0 => pure ()
  | fuel + 1 =>
    if p = 0 then pure ()
    else
      let k ← jlinkOf p
      if k = n then jsetLink p link else junlink fuel k n link
/-- Release (R247): the number of nodes freed. -/
def jrelease (fuel n : Nat) : JM Nat := do
  match fuel with
  | 0 => pure 0
  | fuel + 1 =>
    let x ← get
    let v ← jvarOf n
    let lo ← jloOf n
    let hi ← jhiOf n
    let link ← jlinkOf n
    let b := jslot (jhash v lo hi 0) x.buckets
    let head ← jget 1 (4 * b) 4
    if head = n then jput 1 (4 * b) 4 link else junlink (x.capacity + 1) head n link
    let drop := fun (c : Nat) => (do
      if x.capacity ≤ c then pure 0
      else
        let r ← jrefOf c
        let r1 := if r = 0xFFFF || r = 0 then r else r - 1
        if r1 ≠ r then jsetRef c r1
        let w ← jvarOf c
        if r1 = 0 && c < n && w ≠ 0xFFFE then jrelease fuel c else pure 0 : JM Nat)
    let a ← drop lo
    let b2 ← drop hi
    let free ← jhiOf 0
    let live ← jlinkOf 0
    jsetNode n 0xFFFE 0 0 0 free
    jsetHi 0 n
    jsetLink 0 (live - 1)
    pure (a + b2 + 1)

/-! ## Commands (R242, R243) -/

/-- An operand's node id. -/
def Cmd.jid (c : Cmd) (k : Nat) : Nat := ((c.args.getD k 0#64).extractLsb' 0 32).toNat
/-- s[B] and s[B + 1] of jcfg. -/
def Cmd.cfgB (c : Cmd) : DWord := c.args.getD 5 0#64
def Cmd.cfgB1 (c : Cmd) : DWord := c.args.getD 6 0#64
/-- n of jexp. -/
def Cmd.expVars (c : Cmd) : Nat := ((c.args.getD 1 0#64).extractLsb' 32 5).toNat
/-- Its opcode, in the numbering of Table 13.6, of a recursion. -/
def Cmd.jop (c : Cmd) : Nat :=
  match c.op with
  | .japp => 5 | .jite => 6 | .jres => 7 | .jexq => 8 | .jcnt => 9 | _ => 0
/-- The variable of jmk, and of jvar. -/
def Cmd.jvarArg (c : Cmd) : Nat :=
  if c.op = .jmk then ((c.args.getD 0 0#64).extractLsb' 32 12).toNat else ((c.args.getD 0 0#64).extractLsb' 0 12).toNat
/-- The first two actions of INIT = 1. -/
def jinit (nv handler : Nat) : JM Unit := do
  jsetNode 0 0xFFFF 0xFFFF 2 0 2
  jsetNode 1 0xFFFF 0xFFFF nv handler 0
  jwipe 1
  jwipe 2
/-- The level-to-variable halfwords of the order segment. -/
def jinverse (nv : Nat) (levels : List Nat) : JM Unit :=
  levels.zipIdx.forM (fun p => jput 4 (2 * nv + 2 * p.1) 2 p.2)
/-- The single action of the commands that are one unit: their result, and the order registers they load. -/
def jsingle (c : Cmd) (order : List Nat) (handler : Nat) : JM Nat := do
  let x ← get
  let f := c.jid 0
  match c.op with
  | .jcfg =>
    if c.cfgB.getLsbD 63 then jinit x.nv handler else jsetNode 1 0xFFFF 0xFFFF x.nv handler 0
    jinverse x.nv order
    pure x.capacity
  | .jord =>
    let nv ← jnv
    if order ≠ x.levels then
      let live ← jlinkOf 0
      if 2 < live then modify (fun y => { y with notes := y.notes ++ [(0x709, live)] })
      jinit nv handler
    jinverse nv order
    pure 0
  | .jvar => jmake c.jvarArg 0 1
  | .jmk => jmake c.jvarArg f (c.jid 1)
  | .jref =>
    jincRef f
    jrefOf f
  | .jdrf =>
    let r ← jrefOf f
    if r = 0 then modify (fun y => { y with notes := y.notes ++ [(0x70B, f)] })
    else if r ≠ 0xFFFF then jsetRef f (r - 1)
    jrefOf f
  | .jstat =>
    match f % 16 with
    | 0 => jloOf 0
    | 1 => jhiOf 0
    | 2 => jlinkOf 0
    | 3 => jnv
    | 4 => pure x.buckets
    | 5 => pure x.entries
    | 6 => pure x.capacity
    | _ => pure 0
  | _ =>
    jwipe 2
    pure 0
/-- Where a command stands before its first unit. -/
def Cmd.freshWork (c : Cmd) : JWork :=
  let stack := match c.op with
    | .japp | .jres | .jexq => [JFrame.call c.jop (c.jid 0) (c.jid 1) 0]
    | .jite => [.call 6 (c.jid 0) (c.jid 1) (c.jid 2)]
    | .jcnt => [.call 9 (c.jid 0) 0 0]
    | _ => []
  { stack := stack, acc := 0#64, begun := true, finished := false,
    index := if c.op = .jgc then 2 else if c.op = .jsat then c.jid 0 else 0 }
/-- One unit of a command. -/
def junit (c : Cmd) (order : List Nat) (handler : Nat) (w : JWork) : JM JWork := do
  match c.op with
  | .japp | .jite | .jres | .jexq | .jcnt =>
    let x ← get
    let r ← jrun (64 * (x.nv + 8)) c.fn false w.stack w.acc.toNat
    match r.1 with
    | [] =>
      if c.op = .jcnt then
        let l ← jlevel (c.jid 0)
        let y ← jskip l 0 r.2
        pure { w with stack := [], acc := BitVec.ofNat 64 y, finished := true }
      else pure { w with stack := [], acc := BitVec.ofNat 64 r.2, finished := true }
    | st => pure { w with stack := st, acc := BitVec.ofNat 64 r.2 }
  | .jexp =>
    let n := c.expVars
    let t ← jwalk 4097 w.index n (c.jid 0)
    let i := w.index
    let last := i + 1 = 2 ^ n
    let mask := if last && n < 3 then BitVec.ofNat 8 (256 - 2 ^ (i % 8)) else BitVec.ofNat 8 (2 ^ (i % 8))
    jout (i / 8) mask (BitVec.ofNat 8 (t * 2 ^ (i % 8)))
    pure { w with index := i + 1, acc := w.acc + BitVec.ofNat 64 t, finished := last }
  | .jsat =>
    if c.cursor = 0#64 && w.index = c.jid 0 then
      let nv ← jnv
      (List.range ((nv + 7) / 8)).forM (fun i => jout i 0xFF#8 0#8)
    if w.index < 2 then pure { w with finished := true, acc := if c.jid 0 = 0 then 0#64 else 1#64 }
    else
      modify (fun y => { y with visits := y.visits + 1 })
      let lo ← jkid w.index false
      if lo ≠ 0 then pure { w with index := lo, finished := decide (lo < 2), acc := 1#64 }
      else
        let v ← jvarOf w.index
        jout (v / 8) (BitVec.ofNat 8 (2 ^ (v % 8))) (BitVec.ofNat 8 (2 ^ (v % 8)))
        let hi ← jkid w.index true
        pure { w with index := hi, finished := decide (hi < 2), acc := 1#64 }
  | .jgc =>
    let next ← jloOf 0
    if next ≤ w.index then
      jwipe 2
      pure { w with finished := true }
    else
      let n := w.index
      let v ← jvarOf n
      let r ← jrefOf n
      let freed ← if v ≠ 0xFFFE && r = 0 then jrelease (n + 1) n else pure 0
      if next ≤ n + 1 then jwipe 2
      pure { w with index := n + 1, acc := w.acc + BitVec.ofNat 64 freed, finished := decide (next ≤ n + 1) }
  | _ =>
    let r ← jsingle c order handler
    pure { w with acc := BitVec.ofNat 64 r, finished := true }

/-! ## The engine's chunks (R240, R364) -/

/-- Does a command write no bound segment? -/
def Cmd.jreads (c : Cmd) : Bool := c.op == .jstat || c.op == .jexp || c.op == .jsat
/-- The binding that a command works on: jcfg's own operands, else the launch's, with the number of variables that node 1 holds
(R233). -/
def State.jbinding (s : State) (l : Nat) (c : Cmd) : Option JBinding :=
  if c.op = .jcfg then
    let seg := fun (k : Nat) => descSeg (c.args.getD k 0#64)
    some { node := seg 0, unique := seg 1, cache := seg 2, weight := seg 3, order := seg 4,
           nv := (c.cfgB.extractLsb' 0 12).toNat + 1, levels := [], handler := (c.cfgB1.extractLsb' 0 18).toNat }
  else ((s.loom l).run c.launch).bind (fun r => r.jacquard.map (fun b =>
    { b with nv := Memory.readNat (((Tab.find? r.segs b.node).map (·.data)).getD []) 24 4 }))
/-- Size of a segment of a launch. -/
def State.segSize (s : State) (l id seg : Nat) : Nat :=
  ((((s.loom l).run id).bind (fun r => Tab.find? r.segs seg)).map (·.size)).getD 0
/-- The store that a command begins a chunk with. -/
def State.jstore (s : State) (l id : Nat) (b : JBinding) : JStore :=
  let data := fun (seg : Nat) => ((((s.loom l).run id).bind (fun r => Tab.find? r.segs seg)).map (·.data)).getD []
  { mem := [b.node, b.unique, b.cache, b.weight, b.order].map data
    capacity := s.segSize l id b.node / 16, buckets := s.segSize l id b.unique / 4, entries := s.segSize l id b.cache / 32
    nv := b.nv, levels := b.levels
    vars := (List.range b.nv).map (fun k => (b.levels.zipIdx.find? (fun p => p.1 = k)).elim 0 (·.2))
    reads := [], writes := [], wiped := [], visits := 0, hits := 0, out := [], notes := [] }
/-- The variable-to-level halfwords of the order segment. -/
def State.orderOf (s : State) (l id : Nat) (b : JBinding) : List Nat :=
  (List.range b.nv).map (fun v => leNat (s.cellsAt l id b.order 0 (2 * v) 2))
/-- Are they a permutation of 0 to nv - 1? -/
def isOrder (nv : Nat) (o : List Nat) : Bool := (List.range nv).all (fun k => o.contains k)
/-- A power of two in a range. -/
def powerIn (x low high : Nat) : Bool := low ≤ x && x ≤ high && 2 ^ x.log2 = x
/-- 0x706 of jcfg, the order's contents and the registers' fields apart: the offending segment number. -/
def State.badConfig (s : State) (l : Nat) (c : Cmd) (b : JBinding) : Option Nat :=
  let bad := fun (k : Nat) =>
    let d := c.args.getD k 0#64
    let g := ((s.loom l).run c.launch).bind (fun r => Tab.find? r.segs (descSeg d))
    isFar d || d.extractLsb' 0 47 ≠ 0#47 || descLoom d ≠ placeOf l ||
    (match g with
      | none => true
      | some g => g.tagged || g.readonly) ||
    (List.range k).any (fun j => descSeg (c.args.getD j 0#64) = descSeg d)
  let size := s.segSize l c.launch
  match (List.range 5).find? bad with
  | some k => some (descSeg (c.args.getD k 0#64))
  | none =>
    if !(16 ≤ size b.node / 16 && size b.node / 16 ≤ 262144) then some b.node
    else if !powerIn (size b.unique / 4) 16 1048576 then some b.unique
    else if !powerIn (size b.cache / 32) 2 131072 then some b.cache
    else if size b.weight < 16 * b.nv then some b.weight
    else if size b.order < 4 * b.nv then some b.order
    else none
/-- 0x706 of jcfg for a field of s[B] or s[B + 1]. -/
def State.badRegisters (s : State) (l : Nat) (c : Cmd) (b : JBinding) : Bool :=
  let picks := ((s.loom l).run c.launch).elim 0 (·.pickBytes)
  c.cfgB.extractLsb' 12 51 ≠ 0#51 || c.cfgB1.extractLsb' 18 46 ≠ 0#46 || b.handler % 16 ≠ 0 || picks ≤ b.handler
/-- Is c a cube of its kind: every node with exactly one child 0, and for jexq LO = 0? -/
def jcube (fuel : Nat) (exq : Bool) (n : Nat) : JM Bool := do
  match fuel with
  | 0 => pure false
  | fuel + 1 =>
    if n < 2 then pure true
    else
      let a ← jalive n
      let lo ← jloOf n
      let hi ← jhiOf n
      if !a || (lo = 0) = (hi = 0) || (exq && lo ≠ 0) then pure false
      else jcube fuel exq (if lo = 0 then hi else lo)
/-- Node operands of a command. -/
def Cmd.nodeArgs (c : Cmd) : List Nat :=
  match c.op with
  | .jmk | .japp | .jres | .jexq => [c.jid 0, c.jid 1]
  | .jite => [c.jid 0, c.jid 1, c.jid 2]
  | .jcnt | .jsat | .jexp | .jref | .jdrf => [c.jid 0]
  | _ => []
/-- The first of some ids that is not a terminal or an allocated node. -/
def jdead (l : List Nat) : JM (Option Nat) :=
  match l with
  | [] => pure none
  | n :: rest => do
    let a ← jalive n
    if a then jdead rest else pure (some n)
/-- The checks of the bound segments' contents that are made when a command begins, in the order of Table 25.3: the code and
operand of the one that fails. -/
def jbegin (c : Cmd) : JM (Option (Nat × Nat)) := do
  let x ← get
  match ← jdead c.nodeArgs with
  | some n => pure (some (0x701, n))
  | none =>
    let nv ← if c.op = .jvar || c.op = .jmk then jnv else pure x.nv
    if (c.op = .jvar || c.op = .jmk) && nv ≤ c.jvarArg then pure (some (0x701, c.jvarArg))
    else if c.op = .jmk then
      let a ← jlevel (c.jid 0)
      let b ← jlevel (c.jid 1)
      let lv := x.levels.getD c.jvarArg x.nv
      pure (if a ≤ lv || b ≤ lv then some (0x702, c.jvarArg) else none)
    else if c.op = .jres || c.op = .jexq then
      let ok ← jcube (x.nv + 2) (c.op = .jexq) (c.jid 1)
      pure (if ok then none else some (0x703, c.jid 1))
    else pure (if c.op = .jexp && !(1 ≤ c.expVars && c.expVars ≤ 20) then some (0x705, c.expVars) else none)
/-- The fault that a command meets when it presents its first chunk, before it reads its segments. -/
def State.jfault (s : State) (l : Nat) (c : Cmd) : Option ChunkFault :=
  let of := fun (code operand : Nat) => some ((code, 1, BitVec.ofNat 64 operand) : ChunkFault)
  let d := c.args.getD 1 0#64
  let use := if c.op = .jexp then descUse d / 32 else descUse d
  match s.jbinding l c with
  | none => of 0x707 0
  | some b =>
    if c.op = .jcfg then (s.badConfig l c b).bind (fun g => of 0x706 g)
    else if (c.op = .jexp || c.op = .jsat) && (isFar d || descGroup d ≠ 0 || use ≠ 0) then of 0x604 (descSeg d)
    else none
/-- Bytes of the destination that the units of a chunk reach. -/
def Cmd.destReach (c : Cmd) (l nv units : Nat) : List Reach :=
  let d := c.args.getD 1 0#64
  let i := c.work.index
  match c.op with
  | .jexp =>
    let last := min (i + units) (2 ^ c.expVars) - 1
    [.seg (ownerOf l d) (descSeg d) c.tag.toNat [descOff d + i / 8] (last / 8 - i / 8 + 1) 1 true]
  | .jsat => [.seg (ownerOf l d) (descSeg d) c.tag.toNat [descOff d] ((nv + 7) / 8) 1 true]
  | _ => []
/-- The next chunk of a Jacquard command: its units, each at least one cycle, and the segments it names. -/
def State.jacquardPlan (s : State) (l : Nat) (c : Cmd) (most : Nat) : Plan :=
  let lim := s.chunkOf l c.launch
  let units := max 1 (min most (min (chunkBytes lim / 64) (chunkCycles lim)))
  let named := fun (seg : Nat) (write : Bool) => Reach.seg l seg 0 [] 0 1 write
  match s.jbinding l c with
  | none => { units := 1, cycles := 0, distant := false, reach := [], fault := some (0x707, 1, 0#64) }
  | some b =>
    let w := !c.jreads
    { units := units, cycles := units, distant := true
      reach := [named b.node w, named b.unique w, named b.cache w] ++
        (if c.op = .jcnt then [named b.weight false] else []) ++
        (if c.op = .jcfg || c.op = .jord then [named b.order true] else []) ++ c.destReach l b.nv units
      fault := if c.begun then none else s.jfault l c }
/-- k units, or until the command is finished or stops; what has been done, and why it stopped. A unit that stops, or that would
park its command, keeps nothing but what it has read (R55, R248, R369). -/
def junits (k : Nat) (c : Cmd) (order : List Nat) (handler : Nat) (x : JStore) (w : JWork) (done : Nat) :
    JStore × JWork × Nat × Option JStop :=
  match k with
  | 0 => (x, w, done, none)
  | k + 1 =>
    if w.finished then (x, w, done, none)
    else match (junit { c with cursor := BitVec.ofNat 64 done } order handler w).run x with
      | .ok (w1, y) => junits k c order handler y w1 (done + 1)
      | .error e => ({ x with reads := e.reads }, w, done, some e)
/-- Does a chunk replace a line of a bound segment whole, by its writes (R368)? -/
def JStore.replaces (x : JStore) (seg line : Nat) : Bool :=
  x.wiped.contains seg || coversLine ((x.writes.filter (fun w => w.1 = seg && w.2.1 / 64 = line)).map (fun w =>
    (w.2.1 % 64, w.2.1 % 64 + w.2.2)))
/-- The lines of the destination that a chunk writes, and whether it writes every bit of one. -/
def JStore.outLines (x : JStore) (base : Nat) : List Nat := (x.out.map (fun o => (base + o.1) / 64)).eraseDups
def JStore.outWhole (x : JStore) (base line : Nat) : Bool :=
  (List.range 64).all (fun i =>
    (x.out.foldl (fun (m : Byte) o => if base + o.1 = 64 * line + i then m ||| o.2.1 else m) 0#8) == 0xFF#8)
/-- The first poisoned line of the destination of which a chunk writes less than all (R369). -/
def State.outError (s : State) (l : Nat) (c : Cmd) (x : JStore) : Option ChunkFault :=
  let d := c.args.getD 1 0#64
  (((s.loom (ownerOf l d)).run c.launch).bind (fun r => (x.outLines (descOff d)).find? (fun k =>
    r.poisoned (descSeg d) c.tag.toNat k && !x.outWhole (descOff d) k))).map (fun k =>
      (0x911, 1, operandOf (descSeg d) c.tag.toNat (64 * k)))
/-- The first bad line that a chunk read, or wrote without replacing it. -/
def State.jerrors (s : State) (l id t : Nat) (b : JBinding) (x : JStore) : Option ChunkFault × State :=
  let segs := [b.node, b.unique, b.cache, b.weight, b.order]
  let seg := fun (k : Nat) => segs.getD k 0
  let kept := fun (p : Nat × Nat) => !x.wiped.contains p.1
  let reads := (x.reads.reverse.eraseDups).filter kept
  let r := reads.foldl (fun (acc : Option ChunkFault × State) p =>
    match acc.1 with
    | some _ => acc
    | none =>
      match acc.2.checkLine l id t (seg p.1) 0 p.2 with
      | (some code, s1) => (some (code, 1, operandOf (seg p.1) 0 (64 * p.2)), s1)
      | (none, s1) => (none, s1)) (none, s)
  match r.1 with
  | some f => (some f, r.2)
  | none =>
    match ((r.2.loom l).run id), ((x.writes.reverse.map (fun w => (w.1, w.2.1 / 64))).eraseDups).filter kept with
    | some run, ws =>
      match ws.find? (fun p => run.poisoned (seg p.1) 0 p.2 && !x.replaces p.1 p.2) with
      | some p => (some (0x911, 1, operandOf (seg p.1) 0 (64 * p.2)), r.2)
      | none => (none, r.2)
    | none, _ => (none, r.2)
/-- The lines that jcfg and jord read of the order segment, and jord of node 1. -/
def orderReads (c : Cmd) (b : JBinding) : List (Nat × Nat) :=
  (if c.op = .jord then [(0, 0)] else []) ++ (linesOf 0 (2 * b.nv)).map (fun k => (4, k))
/-- The fault that a command meets when its first chunk is granted: an error in what its checks read, or what they find there. -/
def State.jcheck (s : State) (l : Nat) (c : Cmd) : Option ChunkFault × State :=
  match s.jbinding l c with
  | none => (none, s)
  | some b =>
    let x := s.jstore l c.launch b
    let r : Option (Nat × Nat) × JStore :=
      if c.op = .jcfg || c.op = .jord then
        (if !isOrder b.nv (s.orderOf l c.launch b) then some (0x706, b.order)
         else if c.op = .jcfg && s.badRegisters l c b then some (0x706, 0) else none,
         { x with reads := orderReads c b })
      else match (jbegin c).run x with
        | .ok r => r
        | .error _ => (none, x)
    match s.jerrors l c.launch (s.cmdTenancy l c) b r.2 with
    | (some f, s1) => (some f, s1)
    | (none, s1) => (r.1.map (fun p => (p.1, 1, BitVec.ofNat 64 p.2)), s1)
/-- Store what a chunk left in the bound segments: a line replaced whole loses its poison. -/
def LoomRun.jcommit (r : LoomRun) (b : JBinding) (x : JStore) : LoomRun :=
  [b.node, b.unique, b.cache, b.weight, b.order].zipIdx.foldl (fun r p =>
    match Tab.find? r.segs p.1 with
    | none => r
    | some g =>
      { r with segs := Tab.put r.segs p.1 { g with
          data := x.mem.getD p.2 [], poison := g.poison.filter (fun k => !x.replaces p.2 k) } }) r
/-- A chunk of the Jacquard ends. A collection request parks the command and asks for its handler, which waits for its place while the
landing queue is full; a second request is a stop (R248, R361, R365). -/
def State.jacquardRetire (s : State) (l i : Nat) (c : Cmd) (k : Chunk) : State :=
  match s.jbinding l c, (s.loom l).run c.launch with
  | some b, some run =>
    let order := if c.op = .jcfg || c.op = .jord then s.orderOf l c.launch b else b.levels
    let x0 := s.jstore l c.launch b
    let x := if c.op = .jcfg then { x0 with levels := [] } else x0
    let x := if c.op = .jcfg || c.op = .jord then { x with reads := orderReads c b } else x
    let handler := if c.op = .jcfg then b.handler else (x.mem.getD 0 []).readNat 20 4
    let w0 := if c.work.begun then c.work else c.freshWork
    let first := (c.cursor.extractLsb' 0 32).toNat
    let r := junits k.units c order handler x w0 first
    let y := r.1
    let e := s.jerrors l c.launch run.tenancy b y
    match e.1.or (s.outError l c y), e.2 with
    | some f, s1 => s1.stopChunk l .jacquard i c f
    | none, s1 =>
      let s2 := s1.updLoom l (fun z => z.updRun c.launch (fun r => r.jcommit b y))
      let d := c.args.getD 1 0#64
      let s3 := y.out.foldl (fun s o =>
        let old := (s.cellsAt (ownerOf l d) c.launch (descSeg d) c.tag.toNat (descOff d + o.1) 1).headD 0#8
        s.segWrite (ownerOf l d) c.launch (descSeg d) c.tag.toNat (descOff d + o.1) [(old &&& ~~~o.2.1) ||| o.2.2]) s2
      let s3 := ((y.outLines (descOff d)).filter (y.outWhole (descOff d))).foldl (fun s k =>
          s.updLoom (ownerOf l d) (fun z => z.updRun c.launch (fun r => r.setPoison (descSeg d) c.tag.toNat k false))) s3
      let s4 := (s3.count l run.tenancy 13 y.visits).count l run.tenancy 14 y.hits
      let s5 := y.notes.foldl (fun s n =>
        s.report l run.tenancy 11 c.lane n.1 c.pick c.step (BitVec.ofNat 64 n.2) (some c.launch)) s4
      let s6 := if (c.op = .jcfg || c.op = .jord) && r.2.1.finished then
          s5.updLoom l (fun z => z.updRun c.launch (fun r => { r with jacquard := some { b with levels := order } }))
        else s5
      let cur := BitVec.ofNat 64 r.2.2.1
      let at_ := s6.updCmd l .jacquard i (fun c => { c with cursor := cur, work := r.2.1, done := r.2.1.finished })
      match r.2.2.2 with
      | none => at_
      | some (.fault code operand _) =>
        at_.stopChunk l .jacquard i { c with cursor := cur } (code, 1, BitVec.ofNat 64 operand)
      | some (.collect reason _) =>
        if c.again then at_.stopChunk l .jacquard i { c with cursor := cur } (0x708, 1, BitVec.ofNat 64 reason)
        else
          let m : Message :=
            { launch := c.launch, entry := ((y.mem.getD 0 []).readNat 20 4) % 2 ^ 18,
              payload := BitVec.ofNat 64 (reason + 16 * c.seq) }
          (at_.askLanding l { message := m, since := s.cycle, stamp := c.stamp }).updCmd l .jacquard i (fun c =>
            { c with parked := true, again := true, cursor := 0#64, requested := none, waitedSince := some s.cycle
                     work := { c.work with stack := [], begun := false, finished := false, index := 0, acc := 0#64 } })
  | _, _ => s.removeCmd l .jacquard i
/-- A command that may run ahead of a parked one (R248). -/
def Cmd.runsAhead (c : Cmd) : Bool :=
  c.op == .jgc || c.op == .jref || c.op == .jdrf || c.op == .jstat || c.op == .jclr
/-- The command that the Jacquard runs now: the head, or while it is parked the first of its launch that may run ahead and
that issued after the request, which its chunk's end made when the picks of its cycle had issued. -/
def jacquardNext (q : List Cmd) : Option Nat :=
  match q with
  | [] => none
  | h :: rest =>
    if !h.parked then some 0
    else (rest.zipIdx.find? (fun p => p.1.launch = h.launch && p.1.runsAhead && match h.waitedSince with
      | some x => x < p.1.stamp
      | none => false)).map (fun p => p.2 + 1)
/-- A jgc has completed: the parked command of its launch starts again. -/
def restartParked (q : List Cmd) (id cycle : Nat) : List Cmd :=
  q.map (fun c => if c.parked && c.launch = id then
    { c with parked := false, begun := false, requested := some (cycle + 1), waitedSince := none } else c)

end Sys2Proof.Machine
end

