-- ==== Sys2Proof/Machine/Matrix.lean ====
section
/-!
DEFINITION. The matrix engine and the scale lane: product, tile and window commands, their slices and rows, block sums, the
partial-sum port and its scales (spec/06 R101 to R103, spec/12 R214 to R224, R357 to R359, R362).
-/

namespace Sys2Proof.Machine

/-! ## Formats (Table 1.2) -/

/-- Width in bits of an element of a matrix format: mxfp4, mxint4, mxint6, mxint8, e4m3, e5m2, bf16, f16. -/
def matBits (f : Nat) : Nat := if 6 ≤ f then 16 else quantBits f
/-- Bytes of a block row: 32 elements. -/
def blockBytes (f : Nat) : Nat := 4 * matBits f
/-- Is a pair of formats accepted (R11)? -/
def matPair (fa fb : Nat) : Bool := fa = fb || (fa = 3 && fb = 1) || (fa = 1 && fb = 3)
/-- Steps of a slice (R217). -/
def sliceSteps (fa fb : Nat) : Nat :=
  if fa ≠ fb then 16
  else match fa with
    | 0 | 1 => 8
    | 2 | 4 | 5 => 16
    | _ => 32
/-- Does a pair run its quadrants at full rate (R32)? -/
def fullRate (fa fb : Nat) : Bool := fa = fb && fa < 2
/-- The value of an element's code. -/
def matValue (f code : Nat) : Num :=
  if f = 6 then bf16.decode code else if f = 7 then binary16.decode code else quantValue f code
/-- Element k of a block row (R94). -/
def blockElem (f : Nat) (bytes : List Byte) (k : Nat) : Num :=
  matValue f (leNat bytes / 2 ^ (matBits f * k) % 2 ^ matBits f)

/-! ## Shape and window state (Tables 12.1 and R220) -/

def shapeM (x : BitVec 128) : Nat := (x.extractLsb' 64 8).toNat + 1
def shapeN (x : BitVec 128) : Nat := (x.extractLsb' 72 8).toNat + 1
/-- K / 32. -/
def shapeK (x : BitVec 128) : Nat := (x.extractLsb' 80 12).toNat + 1
def pitchA (x : BitVec 128) : Nat := (x.extractLsb' 0 32).toNat
def pitchB (x : BitVec 128) : Nat := (x.extractLsb' 32 32).toNat
/-- The input descriptor, and count and stride of a level, of the window state. -/
def winDesc (x : BitVec 320) : DWord := x.extractLsb' 256 64
def winLevel (x : BitVec 320) (l : Nat) : DWord := x.extractLsb' (192 - 64 * l) 64
def levelCount (d : DWord) : Nat := (d.extractLsb' 32 16).toNat
def levelStride (d : DWord) : Int := (d.extractLsb' 0 32).toInt
/-- The shape state as the current slot's command reads it: an mshape takes effect from the next step on (R214). -/
def State.shapeNow (s : State) : BitVec 128 := s.me.shape
/-- The window state as the current slot's command reads it. -/
def State.windowNow (s : State) : BitVec 320 := s.me.window

/-! ## Issue (R354, R355) -/

/-- MSHAPE: reserved bits, KB above 2,047 or a pitch that is no multiple of 8 give 0x602. N − 1 and M − 1 above 127, which Table 12.1 rules
out and no fault catches, are taken as they are (DESIGN CHOICE, log 72). -/
def execMshape (o : MxOps) (s : State) : Host.Outcome State Fault Refusal :=
  let a := s.rS o.ra
  let b := s.rS o.rb
  let bad := a.extractLsb' 28 36 ≠ 0#36 || 2047 < (a.extractLsb' 16 12).toNat || (b.extractLsb' 0 3 ≠ 0#3) ||
    b.extractLsb' 32 3 ≠ 0#3
  .next (if s.neverSet o.eng.wm then s.stopSlot 0x607 1 0#64
    else if !s.me.seesTokens o.eng.wm then s.waitFor (.tokens o.eng.wm)
    else if bad then s.stopSlot 0x602 1 0#64
    else (s.clearTokens o.eng.wm).result .shape 1 (BitVec.allOnes 1024) ((a ++ b).zeroExtend 1024))
/-- MWIN: a level count of 0, or bits 63:48 set, give 0x602; a descriptor of the wrong kind 0x604. -/
def execMwin (o : MxOps) (s : State) : Host.Outcome State Fault Refusal :=
  let d := s.rS o.ra
  let lv := fun (k : Nat) => s.rS (o.rb + BitVec.ofNat 6 k)
  let bad := (List.range 4).any (fun k => levelCount (lv k) = 0 || (lv k).extractLsb' 48 16 ≠ 0#16)
  .next (if s.neverSet o.eng.wm then s.stopSlot 0x607 1 0#64
    else if !s.me.seesTokens o.eng.wm then s.waitFor (.tokens o.eng.wm)
    else if bad then s.stopSlot 0x602 1 0#64
    else if s.badSegDesc d 0 then s.stopSlot 0x604 1 0#64
    else (s.clearTokens o.eng.wm).result .window 1 (BitVec.allOnes 1024)
      ((d ++ lv 0 ++ lv 1 ++ lv 2 ++ lv 3).zeroExtend 1024))

/-- Does the launch claim the tiles, or the count queues (R284)? -/
def State.uses (s : State) (bit : Nat) : Bool :=
  match s.myRun with
  | some r => r.uses.getLsbD bit
  | none => false
/-- Is a tile busy: some command that names it has not completed (R218)? -/
def Loom.tileBusy (l : Loom) (tile : Nat) : Bool := l.queues.matrix.any (fun c => c.ac = tile)
/-- Is a tile busy, as a slot reads it (R331)? A slot of a group that has made it busy may read it as it was before; no slot reads
it as busy once every command that names it has completed. -/
def State.tileBusyNow (s : State) (tile : Nat) : Bool :=
  (s.loom s.cur.loom).tileBusy tile &&
    match s.me.group.find? (fun g => g.dest == .busy tile) with
    | none => true
    | some _ => (s.me.view (.busy tile)).getLsbD 0
/-- Note, for the group in progress, that a command of the current slot has made a tile busy. -/
def State.noteBusy (s : State) (tile : Nat) (before : Bool) : State :=
  match s.issue with
  | none => s
  | some _ =>
    s.updMe (fun q => q.note (.busy tile) (s.cur.step + 1) ((BitVec.ofBool before).zeroExtend 1024) (BitVec.allOnes 1024) 1#1024)
/-- Does the pick carry a zld or zset of a tile, so that its product command is scaled (R222)? -/
def State.scaledPick (s : State) (tile : Nat) : Bool :=
  match s.issue with
  | none => false
  | some i => i.scaled.contains tile
/-- The largest unit of a product command in bytes, and its slice's cycles, against sys.chunk (0x603): 32 block rows of each
operand, or fewer where its shape has fewer (R217). An mmag's rows are not known yet, and count as 32 (DEDUCED, log 43). -/
def State.unitTooLarge (s : State) (m : Mnemonic) (fa fb : Nat) : Bool :=
  let c := s.chunkOf s.cur.loom s.me.launch
  let rows := if m = .mmag then 32 else min 32 (shapeM s.shapeNow)
  chunkBytes c < rows * blockBytes fa + min 32 (shapeN s.shapeNow) * blockBytes fb || chunkCycles c < sliceSteps fa fb
/-- The fault at issue of a product command. -/
def State.productFault (s : State) (m : Mnemonic) (o : MxOps) : Option Nat :=
  let fa := o.fa.toNat
  let fb := o.fb.toNat
  let w := s.windowNow
  let lv := fun (k : Nat) => levelCount (winLevel w k)
  firstCode
    [(!matPair fa fb, 0x601),
     (m = .mmaw && (lv 0 * lv 1 ≠ shapeK s.shapeNow || lv 2 * lv 3 ≠ shapeM s.shapeNow), 0x602),
     (s.unitTooLarge m fa fb, 0x603),
     (m ≠ .mmaw && s.badSegDesc (s.rS o.ra) 0, 0x604),
     (s.badSegDesc (s.rS o.rb) 0, 0x604),
     (m = .mmag && s.badSegDesc (s.rS (o.ra + 1#6)) 0, 0x604)]
/-- Issue of a product command, its tokens set. A scaled one waits until the engine is idle, and starts its schedule at this step. -/
def State.product (s : State) (m : Mnemonic) (o : MxOps) : State :=
  let args := match m with
    | .mmag => [s.rS o.ra, s.rS o.rb, s.rS (o.ra + 1#6)]
    | .mmaw => [winDesc s.windowNow, s.rS o.rb]
    | _ => [s.rS o.ra, s.rS o.rb]
  let l := s.loom s.cur.loom
  let tile := o.ac.toNat
  let fa := o.fa.toNat
  let fb := o.fb.toNat
  let c := { s.newCmd m args (tokenOf o.tk) o.eng 1 with
    ac := tile, fa := fa, fb := fb, shape := s.shapeNow, window := s.windowNow, rows := shapeM s.shapeNow }
  let busy := l.tileBusy tile
  s.afterTokens o.eng.wm (if m = .mmaz && s.tileBusyNow tile then s.hold
  else if s.scaledPick tile then
    if l.queues.matrix ≠ [] then s.hold
    else
      let sc : Scaled := { first := s.cur.step, perSlice := sliceSteps fa fb, formed := 0, delivered := 0, sums := [], orphaned := false }
      let t := s.engineSlot .matrix o.eng.wm (s.productFault m o) 0#64
        { c with scaled := some sc, requested := some s.cycle }
      if t.issue.isNone then t
      else (t.updLoom s.cur.loom (fun l => { l with scaleZ := l.scaleZ &&& ~~~(1#8 <<< tile) })).noteBusy tile busy
  else (s.engineSlot .matrix o.eng.wm (s.productFault m o) 0#64 c).noteBusy tile busy)
/-- MMA. -/
def execMma (o : MxOps) (s : State) : Host.Outcome State Fault Refusal := .next (s.product .mma o)
/-- MMAZ. -/
def execMmaz (o : MxOps) (s : State) : Host.Outcome State Fault Refusal := .next (s.product .mmaz o)
/-- MMAG. -/
def execMmag (o : MxOps) (s : State) : Host.Outcome State Fault Refusal := .next (s.product .mmag o)
/-- MMAW. -/
def execMmaw (o : MxOps) (s : State) : Host.Outcome State Fault Refusal := .next (s.product .mmaw o)

/-- Bytes of an element of mdrain and mload: f32, bf16, f16, e4m3, e5m2, i32. -/
def tileFmtBytes (f : Nat) : Nat :=
  match f with
  | 0 | 5 => 4
  | 1 | 2 => 2
  | _ => 1
/-- A command on a tile's rows. -/
def State.tileCommand (s : State) (m : Mnemonic) (o : MxOps) : State :=
  let args := if m = .mzero then [] else [s.rS o.ra, s.rS o.rb]
  let sh := s.rS o.rb
  let size := tileFmtBytes o.fa.toNat
  let fault := if m = .mzero then none else firstCode
    [(shapeRows sh = 0 || 128 < shapeRows sh || shapeBytes sh % size ≠ 0 || 128 * size < shapeBytes sh, 0x602),
     (chunkBytes (s.chunkOf s.cur.loom s.me.launch) < shapeBytes sh, 0x603),
     (s.badSegDesc (s.rS o.ra) 0, 0x604)]
  let c := { s.newCmd m args (tokenOf o.tk) o.eng 1 with ac := o.ac.toNat, fa := o.fa.toNat }
  s.afterTokens o.eng.wm (if s.tileBusyNow o.ac.toNat then s.hold
  else (s.engineSlot .matrix o.eng.wm fault 0#64 c).noteBusy o.ac.toNat ((s.loom s.cur.loom).tileBusy o.ac.toNat))
/-- MZERO. -/
def execMzero (o : MxOps) (s : State) : Host.Outcome State Fault Refusal := .next (s.tileCommand .mzero o)
/-- MDRAIN. -/
def execMdrain (o : MxOps) (s : State) : Host.Outcome State Fault Refusal := .next (s.tileCommand .mdrain o)
/-- MLOAD. -/
def execMload (o : MxOps) (s : State) : Host.Outcome State Fault Refusal := .next (s.tileCommand .mload o)

/-! ## The scale lane (R222, R223) -/

/-- The bytes of a zld operand, checked as a read of its segment. -/
def scaleAccess (d : DWord) (tag n : Nat) : Access :=
  { seg := descSeg d, tag := tag, offs := (List.range n).map (fun i => descOff d + i), size := 1, align := 1, write := false }
/-- Put a load of a tile's scale entries into the lane. -/
def State.scaleLoad (s : State) (x : ScaleLoad) : State :=
  s.updLoom s.cur.loom (fun l => { l with scaleLoads := l.scaleLoads ++ [x] })
/-- ZLD: entry z := M and N scale bytes; z flips; visible to arrivals from step n + 4. A bad line is a precise stop. DESIGN CHOICE
(log 55): Table 25.1 gives 0x604 for mx and sh alone, and R223 says nothing of a descriptor with K = 1 or per-use bits; zld reads
every register as a segment descriptor, and those bits select nothing. -/
def execZld (o : ZsOps) (s : State) : Host.Outcome State Fault Refusal :=
  let a := s.rS o.ra
  let b := s.rS o.rb
  let m := shapeM s.shapeNow
  let n := shapeN s.shapeNow
  let la := ownerOf s.cur.loom a
  let lb := ownerOf s.cur.loom b
  let id := s.me.launch
  let t := s.myTenancy
  let reach := fun (l : Nat) (d : DWord) (k : Nat) =>
    Reach.seg l (descSeg d) s.rTag ((List.range k).map (fun i => descOff d + i)) 1 1 false
  let z := if (s.loom s.cur.loom).scaleZ.getLsbD o.ac.toNat then 1 else 0
  .next (match s.reachFault s.cur.loom id t (reach la a m), s.reachFault s.cur.loom id t (reach lb b n) with
    | some f, _ => s.stopSlot f.1 f.2.1 f.2.2
    | none, some f => s.stopSlot f.1 f.2.1 f.2.2
    | none, none =>
      match s.reachReads s.cur.loom id t false [reach la a m, reach lb b n] with
      | (some f, s1) => s1.stopSlot f.1 f.2.1 f.2.2
      | (none, s1) =>
        (s1.scaleLoad
          { seq := s.cur.seq, visible := s.me.past + s.cur.step + 4, tile := o.ac.toNat, entry := z
            rows := s.cellsAt la id (descSeg a) s.rTag (descOff a) m
            cols := s.cellsAt lb id (descSeg b) s.rTag (descOff b) n, constant := none }).updLoom s.cur.loom
          (fun l => { l with scaleZ := l.scaleZ ^^^ (1#8 <<< o.ac.toNat) }))
/-- ZADD: the sums of the tile that arrive at this step take the staged exponents. -/
def execZadd (o : ZsOps) (s : State) : Host.Outcome State Fault Refusal :=
  .next (s.updIssue (fun i => { i with zadd := some o.ac.toNat }))
/-- ZSET: both entries := a constant; z unchanged. -/
def execZset (o : ZsOps) (s : State) : Host.Outcome State Fault Refusal :=
  let c := (s.rS o.ra).extractLsb' 0 9
  let x := fun (e : Nat) => ({ seq := s.cur.seq, visible := s.me.past + s.cur.step + 4, tile := o.ac.toNat, entry := e, rows := [],
                               cols := [], constant := some c } : ScaleLoad)
  .next ((s.scaleLoad (x 0)).scaleLoad (x 1))

/-! ## Block sums (R101, R103) -/

/-- The block sum of 32 pairs of elements. -/
def blockSum (as bs : List Num) : BlockSum :=
  let ps := (as.zip bs).map (fun p => (p.1.mul p.2).num)
  if as.any Num.isNan || bs.any Num.isNan || ps.any Num.isNan then .nan
  else if ps.any (fun p => p.isInf && p.negative) && ps.any (fun p => p.isInf && !p.negative) then .nan
  else if ps.any Num.isInf then .inf (ps.any (fun p => p.isInf && p.negative))
  else
    let nz := ps.filter (fun p => !p.isZero)
    match nz with
    | [] => .fin 0 0
    | p :: rest =>
      let emax := rest.foldl (fun m q => max m q.exponent) p.exponent
      let q := emax - 60
      let term := fun (p : Num) => match p with
        | .fin neg m x => signed neg (if q ≤ x then m <<< (x - q).toNat else m >>> (q - x).toNat)
        | _ => 0
      .fin (nz.foldl (fun s p => s + term p) 0) q
/-- The accumulator's update at the partial-sum port (R102): one rounding, no flag. -/
def portAdd (acc : Word) (sum : BlockSum) (e : Int) : Word :=
  let s := match sum with
    | .nan => Num.nan false
    | .inf n => .inf n
    | .fin v x => .fin (v < 0) v.natAbs (x + e)
  BitVec.ofNat 32 (((binary32.decode acc.toNat).add s 0#2).round binary32 0#2).code

/-! ## Slices (R216, R217, R220) -/

/-- Column groups of a command. -/
def Cmd.groups (c : Cmd) : Nat := (shapeN c.shape + 31) / 32
/-- Slices of a product command. -/
def Cmd.slices (c : Cmd) : Nat := shapeK c.shape * c.groups
/-- Offset of block b of row i of operand A. -/
def Cmd.offA (c : Cmd) (b i : Nat) : Int :=
  let d := c.args.headD 0#64
  if c.op = .mmaw then
    let lv := fun (k : Nat) => winLevel c.window k
    let c0 := levelCount (lv 0)
    let c2 := levelCount (lv 2)
    (descOff d : Int) + (b % c0 : Nat) * levelStride (lv 0) + (b / c0 : Nat) * levelStride (lv 1) +
      (i % c2 : Nat) * levelStride (lv 2) + (i / c2 : Nat) * levelStride (lv 3)
  else
    let pitch := if pitchA c.shape = 0 then shapeK c.shape * blockBytes c.fa else pitchA c.shape
    (descOff d : Int) + (i * pitch + b * blockBytes c.fa : Nat)
/-- Offset of block b of row j of operand B. -/
def Cmd.offB (c : Cmd) (b j : Nat) : Nat :=
  let d := c.args.getD 1 0#64
  let pitch := if pitchB c.shape = 0 then shapeK c.shape * blockBytes c.fb else pitchB c.shape
  descOff d + j * pitch + b * blockBytes c.fb
/-- Columns of column group m. -/
def Cmd.columns (c : Cmd) (m : Nat) : List Nat := (List.range (shapeN c.shape)).filter (fun j => j / 32 = m)
/-- An offset below zero lies past every segment (0x211), and is a multiple of a block row's size where it was one (0x210 comes first,
Table 24.6). -/
def natOff (x : Int) : Nat := if x < 0 then (x + 3 * 2 ^ 60).toNat else x.toNat
/-- What slice s reads: the block rows of A and of B. -/
def Cmd.sliceReach (c : Cmd) (l s : Nat) : List Reach :=
  let b := s / c.groups
  let da := c.args.headD 0#64
  let db := c.args.getD 1 0#64
  [.seg (ownerOf l da) (descSeg da) c.tag.toNat ((List.range c.rows).map (fun i => natOff (c.offA b i))) (blockBytes c.fa)
     (if c.op = .mmaw then blockBytes c.fa else 1) false,
   .seg (ownerOf l db) (descSeg db) c.tag.toNat ((c.columns (s % c.groups)).map (c.offB b)) (blockBytes c.fb) 1 false]
/-- Block row bytes of an operand. -/
def State.blockRow (s : State) (l : Nat) (c : Cmd) (d : DWord) (off n : Nat) : List Byte :=
  s.cellsAt (ownerOf l d) c.launch (descSeg d) c.tag.toNat off n
/-- The scale entry of a tile: its constant, or its exponents for a row and a column; NaN where a code is 0xFF. -/
def Loom.exponent (l : Loom) (tile entry i j : Nat) : Option Int :=
  match Tab.find? l.scaleConst (tile * 2 + entry) with
  | some c => some c.toInt
  | none =>
    let k := (tile * 2 + entry) * 128
    let a := Tab.get l.scaleA (k + i) 0#8
    let b := Tab.get l.scaleB (k + j) 0#8
    if a = 0xFF#8 || b = 0xFF#8 then none else some (((a.toNat : Int) - 127) + ((b.toNat : Int) - 127))
/-- The block sums of slice n of a product command, formed of the operands as they stand: row, column, sum. -/
def State.formSlice (s : State) (l : Nat) (c : Cmd) (n : Nat) : List (Nat × Nat × BlockSum) :=
  let b := n / c.groups
  let da := c.args.headD 0#64
  let db := c.args.getD 1 0#64
  let rowA := fun (i : Nat) => (List.range 32).map
    (blockElem c.fa (s.blockRow l c da (natOff (c.offA b i)) (blockBytes c.fa)))
  let rowB := fun (j : Nat) => (List.range 32).map (blockElem c.fb (s.blockRow l c db (c.offB b j) (blockBytes c.fb)))
  let as := (List.range c.rows).map (fun i => (i, rowA i))
  let bs := (c.columns (n % c.groups)).map (fun j => (j, rowB j))
  as.flatMap (fun p => bs.map (fun q => (p.1, q.1, blockSum p.2 q.2)))
/-- Deliver sums to a tile: `entry` where a zadd applies one (R102, R223). A row or column past 127 falls where its number leads in acc
(DESIGN CHOICE, log 72). -/
def State.deliverSums (s : State) (l tile : Nat) (sums : List (Nat × Nat × BlockSum)) (entry : Option Nat) : State :=
  let x := s.loom l
  let step := fun (acc : Tab Word) (p : Nat × Nat × BlockSum) =>
    let k := tile * 16384 + p.1 * 128 + p.2.1
    let e := match entry with
      | some z => x.exponent tile z p.1 p.2.1
      | none => some 0
    let v := match e with
      | some e => portAdd (Tab.get acc k 0#32) p.2.2 e
      | none => portAdd (Tab.get acc k 0#32) .nan 0
    Tab.set acc k v 0#32
  s.updLoom l (fun y => { y with acc := sums.foldl step y.acc })
/-- Form slice n and deliver it as it is formed, at offset 0. -/
def State.deliverSlice (s : State) (l : Nat) (c : Cmd) (n : Nat) : State := s.deliverSums l c.ac (s.formSlice l c n) none
/-- Products of a slice, for C00 to C07 (R221). -/
def Cmd.sliceProducts (c : Cmd) (n : Nat) : Nat := c.rows * (c.columns (n % c.groups)).length * 32

/-! ## Tile commands (R219) -/

/-- mdrain's conversion of a tile element. -/
def drainElem (f : Nat) (x : Word) : Nat :=
  let v := binary32.decode x.toNat
  match f with
  | 0 => x.toNat
  | 1 => (v.convert bf16 0#2 false).code
  | 2 => (v.convert binary16 0#2 false).code
  | 3 => (v.convert e4m3 0#2 true).code
  | 4 => (v.convert e5m2 0#2 true).code
  | _ => ((v.toInt 0#2 (-2147483648) 2147483647).1 % 2 ^ 32).toNat
/-- mload's conversion to binary32. -/
def loadElem (f x : Nat) : Word :=
  let of := fun (v : Num) => BitVec.ofNat 32 (v.convert binary32 0#2 false).code
  match f with
  | 0 => BitVec.ofNat 32 x
  | 1 => of (bf16.decode x)
  | 2 => of (binary16.decode x)
  | 3 => of (e4m3.decode x)
  | 4 => of (e5m2.decode x)
  | _ => of (Num.ofInt (toSigned 32 x))
/-- What row r of a tile command reaches. -/
def Cmd.rowReach (c : Cmd) (l r : Nat) : List Reach :=
  let d := c.args.headD 0#64
  let sh := c.args.getD 1 0#64
  if shapeBytes sh = 0 then []
  else [.seg (ownerOf l d) (descSeg d) c.tag.toNat [descOff d + r * shapePitch sh] (shapeBytes sh) 1 (c.op == .mdrain)]
/-- Move row r. -/
def State.moveRow (s : State) (l : Nat) (c : Cmd) (r : Nat) : State :=
  let d := c.args.headD 0#64
  let sh := c.args.getD 1 0#64
  let size := tileFmtBytes c.fa
  let n := shapeBytes sh / size
  let off := descOff d + r * shapePitch sh
  let at_ := fun (j : Nat) => c.ac * 16384 + r * 128 + j
  if c.op = .mdrain then
    s.segWrite (ownerOf l d) c.launch (descSeg d) c.tag.toNat off
      ((List.range n).flatMap (fun j => leBytes size (drainElem c.fa (Tab.get (s.loom l).acc (at_ j) 0#32))))
  else
    let bs := s.cellsAt (ownerOf l d) c.launch (descSeg d) c.tag.toNat off (shapeBytes sh)
    s.updLoom l (fun x => { x with acc := (List.range n).foldl (fun acc j =>
      Tab.set acc (at_ j) (loadElem c.fa (leNat ((bs.drop (j * size)).take size))) 0#32) x.acc })
/-- Every element of a tile, +0; the first part of mmaz clears only its own rows and columns. -/
def clearTile (acc : Tab Word) (tile rows cols : Nat) : Tab Word :=
  acc.filter (fun p => !(p.1 / 16384 = tile && p.1 / 128 % 128 < rows && p.1 % 128 < cols))

/-! ## The engine's chunks -/

/-- Is a command of the product family? -/
def Cmd.isProduct (c : Cmd) : Bool := c.op == .mma || c.op == .mmaz || c.op == .mmag || c.op == .mmaw
/-- Does the first chunk of an mmag hold its first slice beside its count word? That of a scaled one does, since its first slice begins
with its pick (R222), where the word gives rows. -/
def Cmd.startsSlice (c : Cmd) : Bool := c.scaled.isSome && 0 < c.rows && c.rows ≤ 128
/-- The next chunk of the matrix engine's command. -/
def Cmd.matrixPlan (c : Cmd) (l : Nat) : Plan :=
  if c.op = .mmag && !c.begun then
    let d := c.args.getD 2 0#64
    let word : List Reach := [.seg (ownerOf l d) (descSeg d) c.tag.toNat [descOff d] 4 1 false]
    if c.startsSlice then
      { units := 1, cycles := sliceSteps c.fa c.fb, distant := c.args.any (fun d => ownerOf l d ≠ l), reach := word ++ c.sliceReach l 0,
        fault := none }
    else { units := 0, cycles := 0, distant := false, reach := word, fault := none }
  else if c.isProduct then
    let n := (c.cursor.extractLsb' 0 32).toNat
    { units := 1, cycles := sliceSteps c.fa c.fb, distant := (c.args.take 2).any (fun d => ownerOf l d ≠ l),
      reach := c.sliceReach l n, fault := none }
  else if c.op = .mzero then { units := 1, cycles := 1, distant := false, reach := [], fault := none }
  else
    let r := cursorRow c.cursor
    let d := c.args.headD 0#64
    { units := 1, cycles := (shapeBytes (c.args.getD 1 0#64) + 63) / 64, distant := ownerOf l d ≠ l,
      reach := c.rowReach l r, fault := none }
/-- The count word of an mmag. -/
def State.countWord (s : State) (l : Nat) (c : Cmd) : Nat :=
  let d := c.args.getD 2 0#64
  leNat (s.cellsAt (ownerOf l d) c.launch (descSeg d) c.tag.toNat (descOff d) 4)
/-- A command as its next chunk finds it: a scaled mmag that begins has the rows of its count word. -/
def State.matrixReady (s : State) (l : Nat) (c : Cmd) : Cmd :=
  if c.op = .mmag && !c.begun && c.scaled.isSome && c.chunk.isNone then { c with rows := s.countWord l c } else c
/-- What a scaled command asks for with its pick, so that its slice 0 can be granted (R222). -/
def State.scaledReach (s : State) (l : Nat) (c : Cmd) : List Reach := ((s.matrixReady l c).matrixPlan l).reach
/-- mmag takes M from its count word, once the word has been read; 0 rows complete at once, and more than 128 stop it (R362). -/
def State.matrixBegin (s : State) (l : Nat) (i : Nat) (c : Cmd) : State :=
  let d := c.args.getD 2 0#64
  let m := s.countWord l c
  if c.done then s
  else if 128 < m then s.stopChunk l .matrix i c (0x606, 1, operandOf (descSeg d) c.tag.toNat (descOff d))
  else s.updCmd l .matrix i (fun c => { c with begun := true, rows := m, done := m = 0 })
/-- The elements that mmaz sets to +0 before its first product. -/
def State.clearFirst (s : State) (l : Nat) (c : Cmd) (n : Nat) : State :=
  if c.op = .mmaz && n = 0 then
    s.updLoom l (fun x => { x with acc := clearTile x.acc c.ac c.rows (shapeN c.shape) })
  else s
/-- A chunk of the matrix engine ends. -/
def State.matrixRetire (s : State) (l : Nat) (i : Nat) (c : Cmd) : State :=
  if c.op = .mmag && !c.begun && !c.startsSlice then s.matrixBegin l i c
  else if c.isProduct then
    let n := (c.cursor.extractLsb' 0 32).toNat
    let last := c.slices ≤ n + 1
    let s1 := (s.clearFirst l c n).count l (s.cmdTenancy l c) c.fa (c.sliceProducts n)
    let on := fun (c : Cmd) => { c with cursor := BitVec.ofNat 64 (n + 1), begun := true }
    match c.scaled with
    | some sc =>
      if sc.orphaned then
        (s1.deliverSlice l c n).updCmd l .matrix i (fun c => { on c with
          done := last, scaled := some { sc with formed := n + 1, delivered := n + 1 } })
      else s1.updCmd l .matrix i (fun c => { on c with
        scaled := some { sc with formed := n + 1, sums := sc.sums ++ [s1.formSlice l c n] } })
    | none => (s1.deliverSlice l c n).updCmd l .matrix i (fun c => { on c with done := last })
  else if c.op = .mzero then
    (s.updLoom l (fun x => { x with acc := clearTile x.acc c.ac 128 128 })).updCmd l .matrix i (fun c =>
      { c with done := true })
  else
    let r := cursorRow c.cursor
    (s.moveRow l c r).updCmd l .matrix i (fun c =>
      { c with cursor := rowCursor (r + 1) 0, done := shapeRows (c.args.getD 1 0#64) ≤ r + 1 })

/-! ## The partial-sum port (R222 to R224, R359) -/

/-- The step at which slice n of a scaled command arrives: A_n = F + (n + 1) × c + 6. -/
def Scaled.arrival (sc : Scaled) (n : Nat) : Nat := sc.first + (n + 1) * sc.perSlice + 6
/-- The scaled command at the head of a loom's matrix queue, orphaned or not. -/
def Loom.scaledHead (l : Loom) : Option (Cmd × Scaled) := l.queues.matrix.head?.bind (fun c => c.scaled.map (fun sc => (c, sc)))
/-- The scaled command in progress on a loom. -/
def Loom.scaledCmd (l : Loom) : Option (Cmd × Scaled) :=
  match l.queues.matrix with
  | c :: _ => match c.scaled with
    | some sc => if sc.orphaned then none else some (c, sc)
    | none => none
  | [] => none
/-- Does a slice arrive at a step of a sequencer? -/
def Loom.arrivesAt (l : Loom) (q step : Nat) : Bool :=
  match l.scaledCmd with
  | some (c, sc) => c.seq = q && sc.arrival sc.delivered = step && sc.delivered < c.slices
  | none => false
/-- Is the sum of that arrival not yet formed? -/
def Loom.sumLate (l : Loom) (q step : Nat) : Bool :=
  match l.scaledCmd with
  | some (_, sc) => l.arrivesAt q step && sc.formed ≤ sc.delivered
  | none => false
/-- Is no further slice formed now: the port holds the sums of two (R359), or every slice has been formed? -/
def Cmd.portFull (c : Cmd) : Bool :=
  match c.scaled with
  | some sc => !sc.orphaned && (sc.delivered + 2 ≤ sc.formed || c.slices ≤ sc.formed)
  | none => false
/-- Loads of scale entries that an arrival at a step of sequencer q sees take effect, in issue order. DESIGN CHOICE (log 77): R223 counts
from the step of the zld; the steps of the sequencer's later activations in the launch go on from those before. -/
def Loom.settleScales (l : Loom) (q step : Nat) : Loom :=
  let sees := fun (x : ScaleLoad) =>
    x.visible ≤ (l.seq x.seq).past + (if x.seq = q then step else (l.seq x.seq).steps)
  let apply := fun (l : Loom) (x : ScaleLoad) =>
    let k := x.tile * 2 + x.entry
    match x.constant with
    | some c => { l with scaleConst := Tab.put l.scaleConst k c }
    | none =>
      let put := fun (t : Tab Byte) (bs : List Byte) =>
        ((bs.zipIdx).foldl (fun t p => Tab.set t (k * 128 + p.2) p.1 0#8) t)
      { l with scaleConst := Tab.drop l.scaleConst k, scaleA := put l.scaleA x.rows, scaleB := put l.scaleB x.cols }
  { (l.scaleLoads.filter sees).foldl apply l with scaleLoads := l.scaleLoads.filter (fun x => !sees x) }
/-- PARTIAL_SUM_ARRIVAL: the sums of a slice reach the port at the step that has just issued, and take the exponents of
their block's entry where a zadd of their tile executes. -/
def execPartialSumArrival (loom : Nat) (s : State) : Host.Outcome State Fault Refusal :=
  if 1280 ≤ loom then .fault .noSuchAgent
  else .next (match (s.loom loom).portDue, (s.loom loom).scaledCmd with
    | some z, some (c, sc) =>
      if sc.delivered < sc.formed then
        let n := sc.delivered
        let s1 := s.updLoom loom (fun l => { l.settleScales c.seq (sc.arrival n) with portDue := none })
        let entry := if z = some c.ac then some (n / c.groups % 2) else none
        (s1.deliverSums loom c.ac (sc.sums.headD []) entry).updCmd loom .matrix 0 (fun c =>
          { c with scaled := some { sc with delivered := n + 1, sums := sc.sums.tail }, done := c.slices ≤ n + 1 })
      else s.updLoom loom (fun l => { l with portDue := none })
    | _, _ => s.updLoom loom (fun l => { l with portDue := none }))
/-- A scaled command is orphaned (R359): its formed slices are delivered at offset 0, and record 0x610 is written. -/
def State.orphan (s : State) (l q : Nat) : State :=
  match (s.loom l).scaledCmd with
  | none => s
  | some (c, sc) =>
    if c.seq ≠ q || c.done then s
    else
      let s1 := sc.sums.foldl (fun s x => s.deliverSums l c.ac x none) s
      let s2 := (s1.updLoom l (fun x => { x with portDue := none })).updCmd l .matrix 0 (fun c =>
        { c with scaled := some { sc with delivered := sc.formed, sums := [], orphaned := true }, done := c.slices ≤ sc.formed })
      s2.report l (s.cmdTenancy l c) 8 9 0x610 c.pick c.step 0#64 (some c.launch)

end Sys2Proof.Machine
end

