-- ==== Sys2Proof/Machine/VaultPort.lean ====
section
/-!
DEFINITION. The vault and far slots of ma and mb: scheduled banks with their exposed distances and transposing orders, the
shared banks of the loom and its grid neighbours, and far loads and stores (spec/05, spec/11 R207 to R210, R353, R376).
-/

namespace Sys2Proof.Machine

/-! ## Scheduled banks (R74 to R80, R353) -/

/-- A bank as its controller keeps it. -/
def Loom.bank (l : Loom) (b : Nat) : BankState := Tab.get l.banks b BankState.closed
/-- Change one bank. -/
def State.updBank (s : State) (b : Nat) (f : BankState → BankState) : State :=
  s.updLoom s.cur.loom (fun l => { l with banks := Tab.put l.banks b (f (l.bank b)) })
/-- Fewer than n steps since a command? -/
def tooSoon (step : Nat) (since : Option Nat) (n : Nat) : Bool :=
  match since with
  | some x => step < x + n
  | none => false
/-- The vault commands to one bank. -/
inductive BankOp where
  | act | pre | ref | access
deriving DecidableEq, Repr
/-- Does a command break a distance of Table 5.2? A vpre of a closed bank breaks none. -/
def BankState.breaks (b : BankState) (op : BankOp) (step : Nat) : Bool :=
  match op with
  | .act => tooSoon step b.lastAct 64 || tooSoon step b.lastPre 16 || tooSoon step b.lastRef 48
  | .ref => tooSoon step b.lastPre 16 || tooSoon step b.lastRef 48
  | .access => !b.firstAccess && tooSoon step b.lastAct 24
  | .pre => b.row.isSome && tooSoon step b.lastAccess 8
/-- The bank as ma found it, where mb names the bank that ma has named in this pick (0x502). -/
def State.otherPortBank (s : State) (b : Nat) : Option BankState :=
  if s.cur.lane = .mb then (s.issue.bind (·.vaultBank)).bind (fun k => if k.1 = b then some k.2 else none) else none
/-- The current sequencer's steps in the launch, by which the distances of its banks are counted (R76). -/
def State.bankStep (s : State) : Nat := s.me.past + s.cur.step
/-- The fault of a vault command (Table 24.8, in its order), against the bank as it stands before the pick issues. -/
def State.bankFault (s : State) (b : Nat) (op : BankOp) : Option Nat :=
  let other := s.otherPortBank b
  let k := other.getD ((s.loom s.cur.loom).bank b)
  if !s.me.banks.getLsbD b then some 0x501
  else if (match op with
    | .access => k.row.isNone
    | .act | .ref => k.row.isSome
    | .pre => false) then some 0x504
  else if k.breaks op s.bankStep then some 0x503
  else if other.isSome then some 0x502
  else none
/-- OPERAND of a vault fault: bank in bits 39:32, row or column in bits 7:0. -/
def bankOperand (b low : Nat) : DWord := BitVec.ofNat 64 (b * 2 ^ 32 + low)
/-- Make a vault command after its checks. -/
def State.bankCommand (s : State) (b low : Nat) (op : BankOp) (f : State → State) : State :=
  match s.bankFault b op with
  | some code => s.stopSlot code 1 (bankOperand b low)
  | none => f (s.updIssue (fun i => { i with vaultBank := some (b, (s.loom s.cur.loom).bank b) }))
/-- VACT. -/
def execVact (o : VaultRow) (s : State) : Host.Outcome State Fault Refusal :=
  .next (s.bankCommand o.bank.toNat o.row.toNat .act (fun s => s.updBank o.bank.toNat (fun b =>
    { b with row := some o.row.toNat, lastAct := some s.bankStep, firstAccess := false })))
/-- VPRE: a closed bank stays closed and starts no distance. -/
def execVpre (o : VaultRow) (s : State) : Host.Outcome State Fault Refusal :=
  .next (s.bankCommand o.bank.toNat o.row.toNat .pre (fun s => s.updBank o.bank.toNat (fun b =>
    if b.row.isSome then { b with row := none, lastPre := some s.bankStep } else b)))
/-- VREF: refreshes a row group of the closed bank (R78). -/
def execVref (o : VaultRef) (s : State) : Host.Outcome State Fault Refusal :=
  .next (s.bankCommand o.bank.toNat o.group.toNat .ref (fun s =>
    (s.updBank o.bank.toNat (fun b => { b with lastRef := some s.bankStep, switched := b.switched &&& ~~~(1#8 <<< o.group.toNat) })).updLoom s.cur.loom
      (fun l => { l with refresh := Tab.put l.refresh (o.bank.toNat * 8 + o.group.toNat) s.cycle })))

/-- Row bytes of the bytes of v[E], and then of v[E + 1], under an order and a column (R80). -/
def rowBytes (ord col : Nat) : List Nat × List Nat :=
  if ord = 0 then ((List.range 128).map (fun j => 128 * col + j), [])
  else if ord = 1 then
    ((List.range 128).map (fun j => if j < 64 then 128 * j + col else 128 * (j - 64) + col + 64), [])
  else if ord = 2 then ((List.range 128).map (fun j => 128 * (j / 2) + 2 * col + j % 2), [])
  else
    let h := col / 32
    let e := col % 32
    let words := fun (base : Nat) => (List.range 128).map (fun j => 128 * (j / 4 + base) + 4 * e + j % 4)
    if h = 0 then (words 0, words 32) else (words 32, [])
/-- Byte address in the vault of a byte of the open row. -/
def rowAddress (b row byte : Nat) : Nat := b * 2097152 + row * 8192 + byte
/-- The lines that a list of vault bytes touches. -/
def vaultLines (as : List Nat) : List Nat := (as.map (· / 64)).eraseDups
/-- The column of an execution of a vld or vst, by its hidden offset: a held one goes on in the open row by the bytes that it moves,
128 to a column, and past column 63 from column 0 (R34). The manual gives the hidden offset and no wrap: DESIGN CHOICE, log 29. -/
def vaultColumn (o : VaultCol) (offset : Nat) : Nat := (o.col.toNat + offset / 128) % 64
/-- Bytes that an execution moves (R207). -/
def vaultMoves (o : VaultCol) (offset : Nat) : Nat := if o.ord = 3#2 && vaultColumn o offset < 32 then 256 else 128
/-- The column of the current slot. -/
def State.columnOf (s : State) (o : VaultCol) : Nat := vaultColumn o s.cur.offset
/-- VLD: the data lands at n + 20. -/
def execVld (o : VaultCol) (s : State) : Host.Outcome State Fault Refusal :=
  let col := s.columnOf o
  .next (s.bankCommand o.bank.toNat col .access (fun s =>
    let row := ((s.loom s.cur.loom).bank o.bank.toNat).row.getD 0
    let at_ := fun (l : List Nat) => l.map (rowAddress o.bank.toNat row)
    let (x, y) := rowBytes o.ord.toNat col
    let m := (s.loom s.cur.loom).vault
    let value := fun (l : List Nat) => BitVec.ofNat 1024 (leNat ((at_ l).map m.read))
    let s1 := s.updBank o.bank.toNat (fun b => { b with firstAccess := true, lastAccess := some s.bankStep })
    let c := s1.checkVault s.cur.loom s.myTenancy (vaultLines (at_ (x ++ y)))
    let land := fun (s : State) (r : Nat) (l : List Nat) =>
      match c.1 with
      | some (code, k) => s.resultFailed (.v r) 20 { code := code, operand := vaultOperand (64 * k) }
      | none => s.result (.v r) 20 everyBit (value l)
    let s2 := land c.2 o.e.toNat x
    (if y = [] then s2 else land s2 (o.e.toNat + 1) y).countMe 21 (x.length + y.length)))
/-- The vault controller reads lines of its own account: what it finds poisons the line and is reported (R371). -/
def State.controllerReads (s : State) (l t id : Nat) (lines : List Nat) : State :=
  lines.foldl (fun s k =>
    match s.checkVault l t [k] with
    | (some (code, _), s1) => if code = 0x910 then s1 else s1.report l t 15 15 code 0 0 (vaultOperand (64 * k)) (some id)
    | (none, s1) => s1) s
/-- VST: reads its registers at issue. An order that writes part of a poisoned line stops it (R369); the controller reads what it
has to merge. -/
def execVst (o : VaultCol) (s : State) : Host.Outcome State Fault Refusal :=
  let col := s.columnOf o
  .next (s.bankCommand o.bank.toNat col .access (fun s =>
    let row := ((s.loom s.cur.loom).bank o.bank.toNat).row.getD 0
    let (x, y) := rowBytes o.ord.toNat col
    let bytes := (x.zip (vecBytes (s.rV o.e.toNat) 128)) ++ (y.zip (vecBytes (s.rV (o.e.toNat + 1)) 128))
    let ws := bytes.map (fun p => (rowAddress o.bank.toNat row p.1, p.2))
    let whole := (vaultLines (ws.map (·.1))).filter (fun k => (List.range 64).all (fun i => (ws.map (·.1)).contains (64 * k + i)))
    match (vaultLines (ws.map (·.1))).find? (fun k => !whole.contains k && (s.loom s.cur.loom).vaultPoison.contains k) with
    | some k => s.stopSlot 0x911 1 (vaultOperand (64 * k))
    | none =>
      let s0 := s.controllerReads s.cur.loom s.myTenancy s.me.launch ((vaultLines (ws.map (·.1))).filter (fun k => !whole.contains k))
      let s1 := s0.updBank o.bank.toNat (fun b => { b with firstAccess := true, lastAccess := some s.bankStep })
      (s1.updLoom s.cur.loom (fun l => { l with
        vault := ws.foldl (fun m w => m.write w.1 w.2) l.vault
        vaultPoison := l.vaultPoison.filter (fun k => !whole.contains k) })).countMe 21 ws.length))

/-! ## Shared banks (R81, R82, R208) -/

/-- Owner of a shared-bank location word. -/
def sharedOwner (l : Nat) (w : DWord) : Nat := 16 * clusterOf l + (w.extractLsb' 28 4).toNat
/-- Byte address in the owner's vault. -/
def sharedAddr (w : DWord) : Nat := (20 + (w.extractLsb' 21 3).toNat) * 2097152 + (w.extractLsb' 0 21).toNat
/-- Is a location word refused (Table 24.8, 0x505)? -/
def badLocation (l : Nat) (w : DWord) : Bool :=
  w.extractLsb' 32 32 ≠ 0#32 || w.extractLsb' 24 4 ≠ 0#4 || (w.extractLsb' 0 21).toNat % 128 ≠ 0 ||
  !(sharedOwner l w = l || neighbours (sharedOwner l w) l)
/-- An access of the current slot to a shared bank. -/
def State.sharedAccess (s : State) (id : Nat) (write : Bool) (w : DWord) (bs : List Byte) (endsAt : Nat) : SharedAccess :=
  { id := id, write := write, addr := sharedAddr w, bytes := bs, fromLoom := s.cur.loom, seq := s.cur.seq,
    tenancy := s.myTenancy, launch := s.me.launch, pick := s.cur.pick, step := s.cur.step, lane := s.cur.lane.index,
    unseen := s.keptBytes, endsAt := endsAt }
/-- OPERAND of 0x505: the bank in bits 39:32, and the column of the location in bits 7:0, as for a vld (DEDUCED, log 40). -/
def locationOperand (w : DWord) : DWord := bankOperand (20 + (w.extractLsb' 21 3).toNat) (w.extractLsb' 7 6).toNat
/-- The location word, or the far descriptor, of the current slot: a repetition of a held one is k times its size further
(R34). -/
def State.slotWord (s : State) (o : MemFar) : DWord := s.rS o.o + BitVec.ofNat 64 s.cur.offset
/-- VLDR: the data lands no earlier than n + 20; from a contained loom it is zero, with record 0xB03 (Table 22.5). -/
def execVldr (o : MemFar) (s : State) : Host.Outcome State Fault Refusal :=
  let w := s.slotWord o
  let owner := sharedOwner s.cur.loom w
  .next (if badLocation s.cur.loom w then s.stopSlot 0x505 1 (locationOperand w)
    else if (s.loom owner).contained then
      (s.result (.v o.e.toNat) 20 everyBit 0#1024).report s.cur.loom s.myTenancy s.cur.seq s.cur.lane.index 0xB03
        s.cur.pick s.cur.step (locationOperand w) (some s.me.launch)
    else
      let (id, s1) := s.drawId
      let (t, s2) := s1.endOf .sharedServe
      (s2.updLoom owner (fun x => { x with shared := x.shared ++ [s2.sharedAccess id false w [] t] })).resultAwaited
        (.v o.e.toNat) 20 everyBit id)
/-- VSTR: reads its register at issue. -/
def execVstr (o : MemFar) (s : State) : Host.Outcome State Fault Refusal :=
  let w := s.slotWord o
  let owner := sharedOwner s.cur.loom w
  .next (if badLocation s.cur.loom w then s.stopSlot 0x505 1 (locationOperand w)
    else if (s.loom owner).contained then
      s.report s.cur.loom s.myTenancy s.cur.seq s.cur.lane.index 0xB03 s.cur.pick s.cur.step (locationOperand w)
        (some s.me.launch)
    else
      let (t, s1) := s.endOf .sharedServe
      s1.bufferWrite (.shared owner (s1.sharedAccess 0 true w (vecBytes (s.rV o.e.toNat) 128) t)))
/-- SHARED_BANK_SERVE: a loom's vault controller serves its oldest access. -/
def execSharedBankServe (loom : Nat) (s : State) : Host.Outcome State Fault Refusal :=
  if 1280 ≤ loom then .fault .noSuchAgent
  else .next (match (s.loom loom).shared with
    | [] => s
    | a :: rest => (s.updLoom loom (fun x => { x with shared := rest })).serveAccess loom a)

/-! ## Far memory (R86, R87, R209, R376 to R378) -/

/-- LFD: the data lands under the latency class of the window. -/
def execLfd (o : MemFar) (s : State) : Host.Outcome State Fault Refusal :=
  let d := s.slotWord o
  let t := s.myTenancy
  .next (match s.windowFault t d 8 8 false with
    | some code => s.stopSlot code 1 (farOperand d)
    | none =>
      let e := s.window t (farWindow d)
      let p := promise (winLat e)
      let a := winTarget e (farOffset d)
      let st := stackOf s.cur.loom
      let (id, s0) := s.drawId
      let (ends, s1) := s0.endOf .farRead
      let (found, s2) := s1.checkFar st (winKind e) (winPeer e) (s.keyOf e) [a / 64]
      let r : FarRead :=
        { loom := s.cur.loom, seq := s.cur.seq, tenancy := t, launch := s.me.launch, window := farWindow d,
          offset := farOffset d, size := 8, issued := s.cycle, promise := p, target := (winKind e, winPeer e, a),
          value := unseenBytes s.keptBytes (.far (winKind e) (winPeer e)) a (s.farSeen st (winKind e) (winPeer e) (s.keyOf e) a 8), found := found, endsAt := ends, late := false }
      ({ s2 with farReads := Tab.put s2.farReads id r }).resultAwaited (.s o.e.toNat) (if p = 0 then 1 else p) everyBit id)
/-- A far write of the current slot. -/
def State.farWrite (s : State) (d : DWord) (bs : List Byte) (relaxed : Bool) : FarWrite :=
  let t := s.myTenancy
  let e := s.window t (farWindow d)
  { tenancy := t, launch := if s.cur.stream.isSome then none else some s.me.launch, loom := s.cur.loom,
    agent := if s.cur.stream.isSome then 14 else s.cur.seq, lane := s.cur.lane.index, pick := s.cur.pick, step := s.cur.step,
    window := farWindow d, offset := farOffset d, kind := winKind e, peer := winPeer e,
    addr := winTarget e (farOffset d), key := s.keyOf e, bytes := bs, poisoned := false, relaxed := relaxed
    settled := false, endsAt := 0 }
/-- SFD: reads its register at issue. A poisoned line, of which it writes a part, stops it (R369). -/
def execSfd (o : MemFar) (s : State) : Host.Outcome State Fault Refusal :=
  let d := s.slotWord o
  .next (match s.windowFault s.myTenancy d 8 8 true with
    | some code => s.stopSlot code 1 (farOperand d)
    | none =>
      let w := s.farWrite d (leBytes 8 (s.rS (o.e.extractLsb' 0 6)).toNat) true
      if s.farSeenPoison (stackOf s.cur.loom) w.kind w.peer w.addr 8 then s.stopSlot 0x911 1 (farOperand d)
      else s.bufferWrite (.far w))

/-- The code that a far read's completion brings, if any (R369, R371, R377). -/
def farReadCode (r : FarRead) (unreachable : Bool) (status : FarStatus) : Option Nat :=
  if unreachable then some 0x407
  else match status with
  | .ok => r.found
  | .poisoned => some 0x910
  | .uncorrectable => some 0x903
  | .mismatch => some 0x904
  | .hostPoisoned => some 0x905
  | .targetError => some 0x407
/-- A late return through a window: the first on a loom for a launch writes record 0x408 (R378). -/
def State.noteLate (s : State) (r : FarRead) (loom : Nat) : State :=
  match (s.loom loom).run r.launch with
  | none => s
  | some run =>
    if r.promise = 0 || s.cycle ≤ r.issued + r.promise || run.lateWindows.contains r.window then s
    else
      (s.updLoom loom (fun l => l.updRun r.launch (fun x => { x with lateWindows := r.window :: x.lateWindows }))).report
        loom r.tenancy 15 15 0x408 0 0 (operandOf r.window 0 r.offset) (some r.launch)
/-- A far read ends: its data, or the error that it met, goes to the landing that awaits it. Its 8 bytes count either way, while a write
that is lost counts none: R210 says only when each access performs (DESIGN CHOICE, log 71). -/
def State.finishRead (s : State) (id : Nat) (r : FarRead) (status : FarStatus) : State :=
  let s1 := { s with farReads := Tab.drop s.farReads id }
  let (kind, peer, a) := r.target
  let code := farReadCode r (s.unreachable kind a) status
  let poison := kind ≠ 3 && (status = .uncorrectable || status = .mismatch)
  let s2 := if poison then s1.setFarPoison kind peer (a / 64) true else s1
  let data := match code with
    | some c => Returned.failed { code := c, operand := operandOf r.window 0 r.offset }
    | none => .yes
  let s3 := s2.updLoom r.loom (fun x =>
    x.updSeqOf r.seq r.launch (fun q => q.bring id (BitVec.ofNat 1024 (leNat r.value)) data))
  (s3.countFar r.loom r.tenancy kind false 8).noteLate r r.loom
/-- FAR_READ_COMPLETION. -/
def execFarReadCompletion (read : Nat) (status : FarStatus) (s : State) : Host.Outcome State Fault Refusal :=
  .next (match Tab.find? s.farReads read with
    | none => s
    | some r => s.finishRead read r status)
/-- FAR_COMPLETION_TIMEOUT: no completion within 50 ms is a target error (R377). -/
def execFarCompletionTimeout (read : Nat) (s : State) : Host.Outcome State Fault Refusal :=
  .next (match Tab.find? s.farReads read with
    | none => s
    | some r => if r.issued + Config.completionTimeout ≤ s.cycle then s.finishRead read r .targetError else s)
/-- FAR_WRITE_PERFORM: the oldest write of a stack's queue reaches its target, which may refuse it (R264, R377). -/
def execFarWritePerform (stack : Nat) (accepted : Bool) (s : State) : Host.Outcome State Fault Refusal :=
  if 5 ≤ stack then .fault .noSuchAgent
  else .next (match Tab.get s.farQueues stack [] with
    | [] => s
    | w :: rest => ({ s with farQueues := Tab.put s.farQueues stack rest }).landFar w accepted)
/-- PEER_ACCESS_ARRIVAL: a peer's read or write of this device's tier-2 memory performs at the controller (R271), under the key
slot of the peer's entry, which holds the same key on every device of the job (R89). A read has its lines checked, and what is found
there poisons its line and writes a record (R370, R371). -/
def execPeerAccessArrival (access : PeerAccess) (s : State) : Host.Outcome State Fault Refusal :=
  .next (if s.unreachable 1 access.addr then s
    else if access.write then
      s.farStore 1 0 (Tab.get s.keys access.key 0#512) access.addr access.bytes access.poisoned
    else (linesOf access.addr access.bytes.length).foldl (fun s k =>
      match s.checkTier2 k with
      | (some code, s1) => s1.reportTier2 code k
      | (none, s1) => s1) s)

end Sys2Proof.Machine
end

