-- ==== Sys2Proof/Machine/Shuttle.lean ====
section
/-!
DEFINITION. The Shuttle: the sh slots, their checks at issue, the beats of a chunk, what a chunk moves, posts, and the
collective reduction (R106, R225 to R231, R355, R363).
-/

namespace Sys2Proof.Machine

/-! ## Issue (R354, R355) -/

/-- Is a descriptor refused where Table 12.7 allows a far one? -/
def State.badAnyDesc (s : State) (d : DWord) : Bool := !isFar d && s.badSegDesc d 0
/-- Is the mask of an mcast refused: bits 63:16 set, or a loom outside the launch? -/
def State.badMask (s : State) (m : DWord) : Bool :=
  m.extractLsb' 16 48 ≠ 0#48 ||
  (List.range 16).any (fun k => m.getLsbD k && !s.launchLoom s.me.launch (16 * clusterOf s.cur.loom + k))
/-- Is a handler address refused: not a multiple of 16, or at or past the end of the picks? -/
def State.badHandler (s : State) (a : DWord) : Bool :=
  (a.extractLsb' 0 18).toNat % 16 ≠ 0 ||
  match s.myRun with
  | some r => r.pickBytes ≤ (a.extractLsb' 0 18).toNat
  | none => true
/-- Element bytes of a reduce. -/
def reduceBytes (g : DWord) : Nat := if g.extractLsb' 0 2 = 1#2 then 2 else 4
/-- ID, RANK and SIZE of a group word (Table 12.8). -/
def groupId (g : DWord) : Nat := (g.extractLsb' 48 16).toNat
def groupRank (g : DWord) : Nat := (g.extractLsb' 32 16).toNat
def groupSize (g : DWord) : Nat := (g.extractLsb' 16 16).toNat
/-- Device and loom that the runtime has registered for a rank. -/
def Tenancy.rank (t : Tenancy) (id r : Nat) : Option (Nat × Nat) := Tab.find? t.groups (id * 65536 + r)
/-- Is a group word refused (Table 25.1, 0x605)? -/
def State.badGroup (s : State) (g : DWord) : Bool :=
  groupSize g = 0 || groupSize g ≤ groupRank g || g.extractLsb' 2 14 ≠ 0#14 ||
  (s.tenancy s.myTenancy).rank (groupId g) (groupRank g) ≠ some (s.deviceNumber.toNat, s.cur.loom)
/-- The fault at issue of an sh slot, in the order of Table 25.1. -/
def State.shuttleFault (s : State) (m : Mnemonic) (rd rs rn rn1 : DWord) : Option Nat :=
  let far := m = .copy || m = .copyb || m = .gthr || m = .sctr
  let badDest :=
    match m with
    | .copy | .copyb | .fill => s.badAnyDesc rd
    | .mcast => s.cur.stream.isSome || isFar rd || descUse rd ≠ 0
    | .vxfer => isFar rd || s.badSegDesc (rd &&& ~~~(1#64 <<< 32)) 0
    | _ => s.badSegDesc rd 0
  let badSource :=
    match m with
    | .fill | .vxfer | .recall | .pushout => false
    | _ => if far then s.badAnyDesc rs else s.badSegDesc rs 0
  let badThird :=
    match m with
    | .gthr | .sctr | .copyb => s.badSegDesc rn1 0
    | .mcast => s.badMask rn1
    | .post => s.badHandler rn1
    | _ => false
  firstCode
    [(m = .vxfer && (shapeBytes rn % 128 ≠ 0 || shapePitch rn % 128 ≠ 0 || (rs.extractLsb' 0 21).toNat % 128 ≠ 0), 0x602),
     (m = .reduce && shapeBytes rn % reduceBytes rn1 ≠ 0, 0x602),
     (m = .post && (shapeRows rn ≠ 1 || chunkBytes (s.chunkOf s.cur.loom s.me.launch) < shapeBytes rn), 0x603),
     (badDest || badSource || badThird, 0x604),
     (m = .reduce && s.badGroup rn1, 0x605)]
/-- Issue of an sh command: s[RD], s[RS], s[RN], and s[RN + 1] where it reads it. With ROWS or ROWBYTES of 0 it completes at
once (R355): of a post no handler starts and no message is queued, on which R355 and R229 are silent (DESIGN CHOICE, log 85). -/
def State.shuttle (s : State) (m : Mnemonic) (o : ShOps) (two : Bool) : State :=
  let rd := s.rS o.rd
  let rs := s.rS o.rs
  let rn := s.rS o.rn
  let rn1 := if two then s.rS (o.rn + 1#6) else 0#64
  let c := s.newCmd m [rd, rs, rn, rn1] (tokenOf o.tk) o.eng o.sc.toNat
  let empty := m ≠ .recall && m ≠ .pushout && (shapeRows rn = 0 || shapeBytes rn = 0)
  s.engineSlot .shuttle o.eng.wm (s.shuttleFault m rd rs rn rn1) 0#64 { c with done := empty }

/-- COPY. -/
def execCopy (o : ShOps) (s : State) : Host.Outcome State Fault Refusal := .next (s.shuttle .copy o false)
/-- MCAST. -/
def execMcast (o : ShOps) (s : State) : Host.Outcome State Fault Refusal := .next (s.shuttle .mcast o true)
/-- REDUCE. -/
def execReduce (o : ShOps) (s : State) : Host.Outcome State Fault Refusal := .next (s.shuttle .reduce o true)
/-- POST. -/
def execPost (o : ShOps) (s : State) : Host.Outcome State Fault Refusal := .next (s.shuttle .post o true)
/-- RECALL. -/
def execRecall (o : ShOps) (s : State) : Host.Outcome State Fault Refusal := .next (s.shuttle .recall o false)
/-- PUSHOUT. -/
def execPushout (o : ShOps) (s : State) : Host.Outcome State Fault Refusal := .next (s.shuttle .pushout o false)
/-- FILL. -/
def execFill (o : ShOps) (s : State) : Host.Outcome State Fault Refusal := .next (s.shuttle .fill o false)
/-- GTHR. -/
def execGthr (o : ShOps) (s : State) : Host.Outcome State Fault Refusal := .next (s.shuttle .gthr o true)
/-- SCTR. -/
def execSctr (o : ShOps) (s : State) : Host.Outcome State Fault Refusal := .next (s.shuttle .sctr o true)
/-- VXFER. -/
def execVxfer (o : ShOps) (s : State) : Host.Outcome State Fault Refusal := .next (s.shuttle .vxfer o false)
/-- COPYB. -/
def execCopyb (o : ShOps) (s : State) : Host.Outcome State Fault Refusal := .next (s.shuttle .copyb o true)

/-! ## Beats (R226) -/

/-- The registers of an sh command. -/
def Cmd.rd (c : Cmd) : DWord := c.args.getD 0 0#64
def Cmd.rs (c : Cmd) : DWord := c.args.getD 1 0#64
def Cmd.rn (c : Cmd) : DWord := c.args.getD 2 0#64
def Cmd.rn1 (c : Cmd) : DWord := c.args.getD 3 0#64

/-- A beat: row, byte within the row, bytes, and the row index of a gthr or sctr. -/
structure BeatAt where
  row : Nat
  byte : Nat
  n : Nat
  index : Nat
deriving DecidableEq, Repr
/-- The beats from a cursor on, at most k of them, that fit a number of bytes; the first always fits. -/
def beatsFrom (rows bytes k room : Nat) (row byte : Nat) (first : Bool) : List BeatAt :=
  match k with
  | 0 => []
  | k + 1 =>
    let n := min 32 (bytes - byte)
    if rows ≤ row || (!first && room < n) then []
    else
      let b : BeatAt := { row := row, byte := byte, n := n, index := 0 }
      if bytes ≤ byte + n then b :: beatsFrom rows bytes k (room - n) (row + 1) 0 false
      else b :: beatsFrom rows bytes k (room - n) row (byte + n) false
/-- The cursor after some beats. -/
def cursorPast (bytes : Nat) (bs : List BeatAt) (c : DWord) : DWord :=
  match bs.getLast? with
  | none => c
  | some b => if bytes ≤ b.byte + b.n then rowCursor (b.row + 1) 0 else rowCursor b.row (b.byte + b.n)
/-- An end of a transfer: a segment's cells, a far run, a shared bank's bytes, or a pattern. -/
inductive Place where
  | seg (loom seg off : Nat)
  | far (desc : DWord)
  | bank (word : DWord)
  | pattern (from_ : Nat)
deriving DecidableEq, Repr
/-- A far descriptor moved on; an offset past 51 bits lies past every window. -/
def farAt (d : DWord) (n : Nat) : DWord :=
  (d &&& (0xFFF8000000000000#64)) ||| BitVec.ofNat 64 (min (farOffset d + n) (2 ^ 51 - 1))
/-- The place n bytes on from a descriptor. -/
def placeAt (l : Nat) (d : DWord) (n : Nat) : Place :=
  if isFar d then .far (farAt d n) else .seg (ownerOf l d) (descSeg d) (descOff d + n)
/-- Does a beat move: its row index has bit 31 clear? -/
def BeatAt.moves (b : BeatAt) : Bool := b.index < 2 ^ 31
/-- Source and destinations of a beat (Table 12.7). -/
def Cmd.beatPlaces (c : Cmd) (l : Nat) (b : BeatAt) : Place × List Place :=
  let p := shapePitch c.rn
  let at_ := b.row * p + b.byte
  let dense := b.row * shapeBytes c.rn + b.byte
  let there := b.index * p + b.byte
  match c.op with
  | .mcast =>
    (placeAt l c.rs at_,
     ((List.range 16).filter (fun k => c.rn1.getLsbD k)).map
       (fun k => .seg (16 * clusterOf l + k) (descSeg c.rd) (descOff c.rd + at_)))
  | .fill => (.pattern b.byte, [placeAt l c.rd at_])
  | .gthr => (placeAt l c.rs there, [placeAt l c.rd dense])
  | .sctr => (placeAt l c.rs dense, [placeAt l c.rd there])
  | .vxfer =>
    let bank := Place.bank (c.rs + BitVec.ofNat 64 at_)
    let seg := placeAt l c.rd at_
    if descUse c.rd = 0 then (bank, [seg]) else (seg, [bank])
  | _ => (placeAt l c.rs at_, [placeAt l c.rd at_])
/-- What a place of n bytes reaches. -/
def Place.reach (p : Place) (tag n : Nat) (write : Bool) : List Reach :=
  match p with
  | .seg o g off => [.seg o g tag [off] n 1 write]
  | .far d => [.far d n write]
  | .bank w => [.shared w n write]
  | .pattern _ => []
/-- Does a place lie off the issuing loom? -/
def Place.distant (p : Place) (l : Nat) : Bool :=
  match p with
  | .seg o _ _ => o ≠ l
  | .far _ => true
  | .bank _ => true
  | .pattern _ => false
/-- Is a place a far one? -/
def Place.isFar (p : Place) : Bool :=
  match p with
  | .far _ => true
  | _ => false
/-- Does a command read row indices? -/
def Cmd.indexed (c : Cmd) : Bool := c.op == .gthr || c.op == .sctr
/-- The index word that a beat reads. -/
def Cmd.indexReach (c : Cmd) (l : Nat) (b : BeatAt) : List Reach :=
  if c.indexed then [.seg (ownerOf l c.rn1) (descSeg c.rn1) c.tag.toNat [descOff c.rn1 + 4 * b.row] 4 1 false] else []
/-- The index of the row of a beat of a gthr or sctr. Until the word is there to be read, the row asks for nothing. -/
def State.rowIndex (s : State) (l : Nat) (c : Cmd) (b : BeatAt) : Nat :=
  if s.needsMet c.launch ((c.indexReach l b).flatMap (fun r => s.reachNeeds c.launch r)) then
    leNat (s.cellsAt (ownerOf l c.rn1) c.launch (descSeg c.rn1) c.tag.toNat (descOff c.rn1 + 4 * b.row) 4)
  else 2 ^ 31
/-- What it moves, from and to. -/
def Cmd.dataReach (c : Cmd) (l : Nat) (b : BeatAt) : List Reach :=
  let ps := c.beatPlaces l b
  if b.moves then ps.1.reach c.tag.toNat b.n false ++ ps.2.flatMap (fun p => p.reach c.tag.toNat b.n true) else []
/-- What a beat reaches: its index first. -/
def Cmd.beatReach (c : Cmd) (l : Nat) (b : BeatAt) : List Reach := c.indexReach l b ++ c.dataReach l b
/-- The barrier object of a copyb. -/
def Cmd.barrierRef (c : Cmd) (l : Nat) : BarrierRef :=
  { loom := ownerOf l c.rn1, seg := descSeg c.rn1, off := descOff c.rn1 }
/-- The beats of the next chunk, `most` at most, one cycle each within the cycle limit: a post is one chunk, a reduce goes beat by
beat. -/
def State.chunkBeats (s : State) (l : Nat) (c : Cmd) (most : Nat) : List BeatAt :=
  let lim := s.chunkOf l c.launch
  let k := match c.op with
    | .post => 128
    | .reduce => 1
    | _ => min most (chunkCycles lim)
  let bs := beatsFrom (shapeRows c.rn) (shapeBytes c.rn) k (chunkBytes lim) (cursorRow c.cursor) (cursorByte c.cursor) true
  if c.indexed then bs.map (fun b => { b with index := s.rowIndex l c b }) else bs
/-- The beats before the first row of a gthr or sctr that fails, unless the chunk begins with it: that row fails in a chunk of its
own, and the cursor names it (R356). -/
def State.beforeBadRow (s : State) (l : Nat) (c : Cmd) (bs : List BeatAt) : List BeatAt :=
  let good := fun (b : BeatAt) =>
    (c.beatReach l b).all (fun r => (s.reachFault l c.launch (s.cmdTenancy l c) r).isNone)
  match bs with
  | [] => []
  | b :: rest => if good b then b :: rest.takeWhile good else [b]
/-- The next chunk of a Shuttle command. -/
def State.shuttlePlan (s : State) (l : Nat) (c : Cmd) (most : Nat) : Plan × List Nat :=
  if c.op = .recall || c.op = .pushout then
    ({ units := 1, cycles := 0, distant := ownerOf l c.rd ≠ l,
       reach := [.seg (ownerOf l c.rd) (descSeg c.rd) 0 [] 0 1 false], fault := none }, [])
  else
    let all := s.chunkBeats l c most
    let bs := if c.indexed then s.beforeBadRow l c all else all
    let object := if c.op = .copyb then
        [Reach.seg (ownerOf l c.rn1) (descSeg c.rn1) 0 [descOff c.rn1] 16 16 true]
      else []
    let places := bs.flatMap (fun b => let ps := c.beatPlaces l b; if b.moves then ps.1 :: ps.2 else [])
    ({ units := bs.length, cycles := bs.length, distant := places.any (fun p => p.distant l),
       reach := object ++ bs.flatMap (c.beatReach l), fault := none }, bs.map (·.index))

/-! ## Moving (R226, R231, R264) -/

/-- The bytes at a place, as the Shuttle of a loom reads them. -/
def State.placeBytes (s : State) (l : Nat) (c : Cmd) (p : Place) (n : Nat) : List Byte :=
  match p with
  | .seg o seg off => s.cellsAt o c.launch seg c.tag.toNat off n
  | .far d =>
    let e := s.window (s.cmdTenancy l c) (farWindow d)
    s.farSeen (stackOf l) (winKind e) (winPeer e) (s.keyOf e) (winTarget e (farOffset d)) n
  | .bank w => (s.loom (wordOwner l w)).bankBytes (s.cmdTenancy l c) (s.placedAt l c.launch) (wordAddr w) n
  | .pattern b => (List.range n).map (fun i => c.rs.extractLsb' (8 * ((b + i) % 8)) 8)
/-- Is a line that a place of n bytes lies in poisoned? -/
def State.placePoison (s : State) (l : Nat) (c : Cmd) (p : Place) (n : Nat) : Bool :=
  match p with
  | .seg o seg off =>
    match (s.loom o).run c.launch with
    | some r => (linesOf off n).any (fun k => r.poisoned seg c.tag.toNat k)
    | none => false
  | .far d =>
    let e := s.window (s.cmdTenancy l c) (farWindow d)
    s.farSeenPoison (stackOf l) (winKind e) (winPeer e) (winTarget e (farOffset d)) n
  | .bank w =>
    let x := s.loom (wordOwner l w)
    (x.ownLines (s.cmdTenancy l c) (s.placedAt l c.launch) (linesOf (wordAddr w) n)).any (fun k => x.vaultPoison.contains k)
  | .pattern _ => false
/-- A write of a chunk: where, what, and whether its source is poisoned. -/
structure PlaceWrite where
  place : Place
  bytes : List Byte
  poisoned : Bool
deriving DecidableEq, Repr
/-- Far writes that follow one another in a line travel as one. -/
def joinWrites (l : List PlaceWrite) : List PlaceWrite :=
  l.foldl (fun acc w =>
    match acc.getLast?, w.place with
    | some v, .far d =>
      match v.place with
      | .far b =>
        if farWindow b = farWindow d && farOffset b + v.bytes.length = farOffset d && farOffset d % 64 ≠ 0 then
          acc.dropLast ++ [{ v with bytes := v.bytes ++ w.bytes, poisoned := v.poisoned || w.poisoned }]
        else acc ++ [w]
      | _ => acc ++ [w]
    | _, _ => acc ++ [w]) []
/-- The write that a Shuttle sends to a far descriptor. -/
def State.shuttleFar (s : State) (l : Nat) (c : Cmd) (d : DWord) (bs : List Byte) (poisoned : Bool) : FarWrite :=
  let t := s.cmdTenancy l c
  let e := s.window t (farWindow d)
  { tenancy := t, launch := if 1280 ≤ l then none else some c.launch, loom := l, agent := 10, lane := c.lane,
    pick := c.pick, step := c.step, window := farWindow d, offset := farOffset d, kind := winKind e, peer := winPeer e,
    addr := winTarget e (farOffset d), key := s.keyOf e, bytes := bs, poisoned := poisoned,
    relaxed := !(s.loom l).shuttleReleased, settled := true, endsAt := 0 }
/-- Write bytes of a location word's shared bank. -/
def State.bankWrite (s : State) (l id t : Nat) (w : DWord) (bs : List Byte) : State :=
  s.updLoom (wordOwner l w) (fun x => ({ x with vault := x.vault.writeBytes (wordAddr w) bs } : Loom).noteWritten id t s.cycle
    (wordAddr w) bs.length)
/-- Write bytes at a place; a far write sets out, and a host write after a release at sys scope is not relaxed. -/
def State.placeWrite (s : State) (l : Nat) (c : Cmd) (w : PlaceWrite) : State :=
  let bs := w.bytes
  match w.place with
  | .seg o seg off => s.updLoom o (fun x => x.updRun c.launch (fun r => r.setCells seg c.tag.toNat off bs))
  | .far d =>
    let f := s.shuttleFar l c d bs w.poisoned
    let s1 := (s.sendFar f).countFar l (s.cmdTenancy l c) f.kind true bs.length
    if f.kind = 3 then s1.updLoom l (fun x => { x with shuttleReleased := false }) else s1
  | .bank w => s.bankWrite l c.launch (s.cmdTenancy l c) w bs
  | .pattern _ => s
/-- The poison of the near lines that a chunk has written: that of the sources it carried, else what a line had and was not
replaced whole (R368). -/
def State.carryPoison (s : State) (l : Nat) (c : Cmd) (ws : List PlaceWrite) : State :=
  let cuts := ws.flatMap (fun w =>
    (w.place.reach c.tag.toNat w.bytes.length true).flatMap (fun r => (r.writes l).map (fun x => (x, w.poisoned))))
  ((cuts.map (fun x => x.1.1)).eraseDups).foldl (fun s key =>
    let mine := cuts.filter (fun x => x.1.1 = key)
    let carried := mine.any (fun x => x.2)
    let (a, seg, tag, k) := key
    if !carried && !coversLine (mine.map (fun x => x.1.2)) then s
    else if seg < 4096 then s.updLoom a (fun x => x.updRun c.launch (fun r => r.setPoison seg tag k carried))
    else if seg = 4096 then s.updLoom a (fun x => { x with
      vaultPoison := (if carried then [k] else []) ++ x.vaultPoison.filter (· ≠ k) })
    else s) s
/-- Count the bytes that a place gives or takes (R231): far reads, and both ways of vxfer. -/
def State.countPlace (s : State) (l : Nat) (c : Cmd) (p : Place) (n : Nat) : State :=
  match p with
  | .far d => s.countFar l (s.cmdTenancy l c) (winKind (s.window (s.cmdTenancy l c) (farWindow d))) false n
  | _ => s
/-- One beat: its source is read, then each destination is written in ascending loom number. A shared bank serves the
accesses that arrived before (R82, R269). Far writes set out with the rest of their line, at the chunk's end. -/
def State.moveBeat (s : State) (l : Nat) (c : Cmd) (b : BeatAt) : State × List PlaceWrite :=
  if !b.moves then (s, [])
  else
    let ps := c.beatPlaces l b
    let s0 := match c.op with
      | .vxfer => s.serveAll (wordOwner l c.rs)
      | _ => s
    let bs := s0.placeBytes l c ps.1 b.n
    let ws := ps.2.map (fun p => ({ place := p, bytes := bs, poisoned := s0.placePoison l c ps.1 b.n } : PlaceWrite))
    let s1 := (ws.filter (fun w => !w.place.isFar)).foldl (fun s w => s.placeWrite l c w) (s0.countPlace l c ps.1 b.n)
    (if c.op = .vxfer then s1.count l (s.cmdTenancy l c) 21 b.n else s1, ws)
/-- The beats of a chunk, in their order, and what becomes of the lines that they wrote. -/
def State.moveBeats (s : State) (l : Nat) (c : Cmd) (bs : List BeatAt) : State :=
  let r := bs.foldl (fun (a : State × List PlaceWrite) b => let m := a.1.moveBeat l c b; (m.1, a.2 ++ m.2)) (s, [])
  let far := joinWrites (r.2.filter (fun w => w.place.isFar))
  far.foldl (fun s w => s.placeWrite l c w) (r.1.carryPoison l c (r.2.filter (fun w => !w.place.isFar)))
/-- The credit of a copyb chunk: an update of the object's bank ALU after the chunk's writes have performed (R227, R387), with
RL = 1 at the command's scope (R212). -/
def State.credit (s : State) (l : Nat) (c : Cmd) (n : Nat) : State :=
  let r := c.barrierRef l
  let s0 := s.shuttleRelease l (if c.rl then max 1 c.scope else 1)
  match s0.barrierAt c.launch r with
  | none => s0
  | some o =>
    let x := o.credit n
    let s1 := s0.setBarrier c.launch r x.1
    let s2 := if x.2.1 then s1.releaseWaiters c.launch r x.1.seen else s1
    if x.2.2 then
      s2.report (portNumber l) (s.cmdTenancy l c) 10 c.lane 0x803 c.pick c.step (operandOf r.seg 0 r.off)
        (if l < 1280 then some c.launch else none)
    else s2

/-! ## Reduce (R106, R228, R363) -/

/-- Pairs of neighbours combined, the last alone where the number is odd. -/
def combinePairs (op : Nat → Nat → Nat) (xs : List Nat) : List Nat :=
  match xs with
  | x :: y :: r => op x y :: combinePairs op r
  | l => l
/-- The canonical tree over the ranks' contributions; 16 levels hold 65,535 ranks. -/
def rankTree (op : Nat → Nat → Nat) (k : Nat) (xs : List Nat) : Nat :=
  match k with
  | 0 => xs.headD 0
  | k + 1 => match xs with
    | [x] => x
    | xs => rankTree op k (combinePairs op xs)
/-- The operation of a group word on two elements. -/
def rankOp (g : DWord) (x y : Nat) : Nat :=
  match (g.extractLsb' 0 2).toNat with
  | 0 => (((binary32.decode x).add (binary32.decode y) 0#2).round binary32 0#2).code
  | 1 => (((bf16.decode x).add (bf16.decode y) 0#2).round bf16 0#2).code
  | 2 => (x + y) % 2 ^ 32
  | _ => (reduceOp 0 32 2 0#2 false x y).code
/-- The tree result over every rank's bytes. -/
def reduceBeat (g : DWord) (contribs : List (List Byte)) : List Byte :=
  let size := reduceBytes g
  let n := (contribs.headD []).length / size
  (List.range n).flatMap (fun k =>
    leBytes size (rankTree (rankOp g) 17 (contribs.map (fun bs => leNat ((bs.drop (k * size)).take size)))))
/-- The reduces of a rank of a tenancy's group in a loom's queue, oldest first. -/
def State.reducesOf (s : State) (l t id rank : Nat) : List (Nat × Cmd) :=
  (((s.loom l).cmds .shuttle).zipIdx.filter (fun p => p.1.op = .reduce && groupId p.1.rn1 = id && groupRank p.1.rn1 = rank &&
    !p.1.done && s.cmdTenancy l p.1 = t)).map (fun p => (p.2, p.1))
/-- The oldest of them: a later one of the same rank waits for it. -/
def State.reduceOf (s : State) (l t id rank : Nat) : Option (Nat × Cmd) := (s.reducesOf l t id rank).head?
/-- The ranks of a group that a rank exchanges with in the tree. -/
def treePartners (r n : Nat) : List Nat :=
  (List.range n).filter (fun p =>
    p ≠ r && (List.range 17).any (fun k =>
      (p % 2 ^ (k + 1) = 0 && p + 2 ^ k = r) || (r % 2 ^ (k + 1) = 0 && r + 2 ^ k = p)))
/-- Does a rank's command differ from another's in what R363 exchanges? -/
def Cmd.differs (a b : Cmd) : Bool :=
  groupSize a.rn1 ≠ groupSize b.rn1 || a.rn1.extractLsb' 0 2 ≠ b.rn1.extractLsb' 0 2 ||
  shapeRows a.rn ≠ shapeRows b.rn || shapeBytes a.rn ≠ shapeBytes b.rn
/-- The device and loom of rank p of a command's group. -/
def State.rankAt (s : State) (l : Nat) (c : Cmd) (p : Nat) : Option (Nat × Nat) :=
  (s.tenancy (s.cmdTenancy l c)).rank (groupId c.rn1) p
/-- The commands of a rank's tree partners on this device, those in progress. -/
def State.partners (s : State) (l : Nat) (c : Cmd) : List (Nat × Nat × Cmd) :=
  let g := c.rn1
  (treePartners (groupRank g) (groupSize g)).filterMap (fun p =>
    match s.rankAt l c p with
    | some (d, x) =>
      if d = s.deviceNumber.toNat then (s.reduceOf x (s.cmdTenancy l c) (groupId g) p).bind (fun q =>
        if q.2.begun then some (x, q.1, q.2) else none)
      else none
    | none => none)
/-- Do two members of this device claim the rank of one of a command's partners, with beats that have still to be answered (R363)? -/
def State.claimedTwice (s : State) (l : Nat) (c : Cmd) : Bool :=
  let g := c.rn1
  (treePartners (groupRank g) (groupSize g)).any (fun p =>
    match s.rankAt l c p with
    | some (d, x) => d = s.deviceNumber.toNat &&
        (((s.reducesOf x (s.cmdTenancy l c) (groupId g) p).filter (fun q => q.2.begun && q.2.answer.isNone)).map (fun q => q.2.seq)).eraseDups.length ≥ 2
    | none => false)
/-- Is one of a command's partners on another device? -/
def State.partnerAway (s : State) (l : Nat) (c : Cmd) : Bool :=
  (treePartners (groupRank c.rn1) (groupSize c.rn1)).any (fun p =>
    match s.rankAt l c p with
    | some (d, _) => d ≠ s.deviceNumber.toNat
    | none => false)
/-- What each rank offers to the beat, in rank order: none where a rank of this device has not come so far. A rank on
another device brings bytes that nothing here fixes, when it comes (log 19). -/
def State.contributions (s : State) (l : Nat) (c : Cmd) (n : Nat) : Option (List (List Byte)) :=
  let g := c.rn1
  (List.range (groupSize g)).foldr (fun p acc =>
    acc.bind (fun xs =>
      match s.rankAt l c p with
      | none => none
      | some (d, x) =>
        if d ≠ s.deviceNumber.toNat then
          if Config.peerLate (s.free + p) then none else some (leBytes n (Config.freeValue (s.free + p)).toNat :: xs)
        else match s.reduceOf x (s.cmdTenancy l c) (groupId g) p with
          | some (_, q) => if q.cursor = c.cursor then q.offered.map (fun b => b :: xs) else none
          | none => none)) (some [])
/-- Every rank of this device takes the result of the beat. -/
def State.answerAll (s : State) (l : Nat) (c : Cmd) (bs : List Byte) : State :=
  let g := c.rn1
  let s0 := { s with free := s.free + groupSize g }
  (List.range (groupSize g)).foldl (fun s p =>
    match s.rankAt l c p with
    | some (d, x) =>
      if d = s.deviceNumber.toNat then
        match s.reduceOf x (s.cmdTenancy l c) (groupId g) p with
        | some (i, _) => s.updCmd x .shuttle i (fun q => { q with
            answer := some bs, offered := none, waitedSince := none, waitReported := false })
        | none => s
      else s
    | none => s) s0
/-- Bytes that a rank exchanges with ranks of other devices in a beat of n bytes: sent and received. -/
def State.exchanged (s : State) (l : Nat) (c : Cmd) (n : Nat) : Nat × Nat :=
  let g := c.rn1
  let r := groupRank g
  let away := (treePartners r (groupSize g)).filter (fun p =>
    match s.rankAt l c p with
    | some (d, _) => d ≠ s.deviceNumber.toNat
    | none => false)
  (away.length * n, away.length * n)
/-- A rank of a command's group, as one number. -/
def Cmd.rankKey (c : Cmd) (p : Nat) : Nat := groupId c.rn1 * 65536 + p
/-- Does a rank wait on one that has stopped with 0x608, before it began or since (R363)? -/
def State.waitsOnStopped (s : State) (l : Nat) (c : Cmd) : Bool :=
  c.partnerStopped ||
  (treePartners (groupRank c.rn1) (groupSize c.rn1)).any (fun p =>
    (s.tenancy (s.cmdTenancy l c)).stoppedRanks.contains (c.rankKey p, c.launch))
/-- A rank begins a reduce: its earlier stop counts no more. -/
def State.rankBegins (s : State) (l : Nat) (c : Cmd) : State :=
  if c.begun then s
  else s.updTenancy (s.cmdTenancy l c) (fun x =>
    { x with stoppedRanks := x.stoppedRanks.filter (fun k => k.1 ≠ c.rankKey (groupRank c.rn1)) })
/-- Where a rank's next beat stands. -/
inductive BeatStand where
  | differ    -- 0x608
  | bad (f : ChunkFault)   -- an error in what it would send (R369)
  | wait
  | ready
deriving DecidableEq, Repr
/-- May a rank's chunk for its next beat begin, its segments granted: the result has come, or comes now that its own contribution
is there? A command that is not its rank's oldest waits, and is compared with nobody's; nor is one compared with a partner's earlier
reduce, whose beat has been answered. Its contribution is read once, with the checks of a read. Before the first beat a partner on
another device may turn out to have issued other values (R363). -/
def State.reduceStand (s : State) (l i : Nat) (c : Cmd) (b : BeatAt) : BeatStand × State :=
  let ps := s.partners l c
  let first := c.cursor = 0#64 && c.offered.isNone && c.answer.isNone && s.partnerAway l c
  let away := if first then s.drawFlag Config.peerDiffers else (false, s)
  if (s.reduceOf l (s.cmdTenancy l c) (groupId c.rn1) (groupRank c.rn1)).map (·.1) ≠ some i then (.wait, s)
  else if ps.any (fun p =>
      c.cursor = 0#64 && p.2.2.cursor = 0#64 && c.answer.isNone && p.2.2.answer.isNone && c.differs p.2.2) ||
      s.claimedTwice l c || away.1 then
    (.differ, away.2)
  else if s.waitsOnStopped l c && ps.any (fun p => p.2.2.offered.isSome || p.2.2.cursor ≠ c.cursor) then (.differ, away.2)
  else if c.answer.isSome then (.ready, away.2)
  else
    let source := placeAt l c.rs (b.row * shapePitch c.rn + b.byte)
    let read := if c.offered.isSome then (none, away.2)
      else away.2.reachReads l c.launch (s.cmdTenancy l c) false (source.reach c.tag.toNat b.n false)
    match read.1 with
    | some f => (.bad f, read.2)
    | none =>
      let own := c.offered.getD (read.2.placeBytes l c source b.n)
      let s1 := read.2.updCmd l .shuttle i (fun c => { c with
        offered := some own, waitedSince := if c.waitedSince.isSome then c.waitedSince else some s.cycle })
      match s1.contributions l c b.n with
      | some xs => (.ready, s1.answerAll l c (reduceBeat c.rn1 xs))
      | none => (.wait, { s1 with free := s1.free + groupSize c.rn1 })
/-- The launches of a tenancy that hold their looms. -/
def State.runningLaunches (s : State) (t : Nat) : List Nat :=
  (s.launches.filter (fun p => p.2.tenancy = t && (p.2.phase = .running || p.2.phase = .ending))).map (·.1)
/-- A rank stops with 0x608: the ranks that wait on it learn of it, and so do those that begin later in a launch that runs now; a
later launch finds nothing of it. -/
def State.stopPartners (s : State) (l : Nat) (c : Cmd) : State :=
  let own := (s.runningLaunches (s.cmdTenancy l c)).map (fun id => (c.rankKey (groupRank c.rn1), id))
  ((s.partners l c).foldl (fun s p => s.updCmd p.1 .shuttle p.2.1 (fun q => { q with partnerStopped := true })) s).updTenancy
    (s.cmdTenancy l c) (fun x => { x with stoppedRanks := own ++ x.stoppedRanks.filter (fun k => !own.contains k) })
/-- Has a rank waited more than 2^31 cycles for a beat, and not reported it (R363)? -/
def Cmd.waitsLong (c : Cmd) (cycle : Nat) : Bool :=
  c.op == .reduce && !c.stopped && !c.waitReported && match c.waitedSince with
    | some x => x + Config.reducePatience < cycle
    | none => false
/-- REDUCE_PARTNER_TIMEOUT: a rank that has waited more than 2^31 cycles for a beat writes record 0x609, once for the wait, and
goes on waiting. -/
def execReducePartnerTimeout (loom : Nat) (s : State) : Host.Outcome State Fault Refusal :=
  if 1280 ≤ loom then .fault .noSuchAgent
  else .next (match ((s.loom loom).cmds .shuttle).zipIdx.find? (fun p => p.1.waitsLong s.cycle) with
    | none => s
    | some (c, i) =>
      (s.updCmd loom .shuttle i (fun c => { c with waitReported := true })).recordAt loom (s.cmdTenancy loom c) 10 c.lane 3 3
        0x609 0#14 c.pick c.step 0#64 (some c.launch))

/-! ## A chunk ends -/

/-- The message of a post, for the landing queue of its owner. -/
def State.land (s : State) (o : Nat) (m : Message) : State := s.updLoom o (fun x => { x with landing := x.landing ++ [m] })
/-- Are all rows moved when the cursor stands here? -/
def Cmd.allRows (c : Cmd) (cursor : DWord) : Bool := shapeRows c.rn ≤ cursorRow cursor
/-- The effects of a Shuttle chunk. -/
def State.shuttleRetire (s : State) (l i : Nat) (c : Cmd) (k : Chunk) : State :=
  let t := s.cmdTenancy l c
  match c.op with
  | .recall => s.updCmd l .shuttle i (fun c => { c with done := true })
  | .pushout => s.updCmd l .shuttle i (fun c => { c with done := true })
  | .reduce =>
    let b := (s.chunkBeats l c 1).headD { row := 0, byte := 0, n := 0, index := 0 }
    let cur := cursorPast (shapeBytes c.rn) [b] c.cursor
    let w : PlaceWrite := { place := placeAt l c.rd (b.row * shapePitch c.rn + b.byte), bytes := c.answer.getD [], poisoned := false }
    let s0 := s.countPlace l c (placeAt l c.rs (b.row * shapePitch c.rn + b.byte)) b.n
    let s1 := (s0.placeWrite l c w).carryPoison l c [w]
    let x := s1.exchanged l c b.n
    ((s1.count l t 19 x.1).count l t 20 x.2).updCmd l .shuttle i (fun d => { d with
      cursor := cur, answer := none, done := d.allRows cur })
  | _ =>
    let bs := ((s.chunkBeats l c k.units).zip (k.index ++ List.replicate 4096 0)).map (fun p => { p.1 with index := p.2 })
    let cur := cursorPast (shapeBytes c.rn) bs c.cursor
    let s1 := s.moveBeats l c bs
    let n := bs.foldl (fun n b => n + b.n) 0
    let s2 := if c.op = .copyb then s1.credit l c n else s1
    let s3 := if c.op = .post && !c.done then
        (s2.shuttleRelease l (max 1 c.scope)).land (ownerOf l c.rd)
          { launch := c.launch, entry := (c.rn1.extractLsb' 0 18).toNat, payload := c.rd }
      else s2
    s3.updCmd l .shuttle i (fun d => { d with cursor := cur, done := d.allRows cur })

end Sys2Proof.Machine
end

