-- ==== Sys2Proof/Machine/Engines.lean ====
section
/-!
DEFINITION. What every engine does in the same way: the grant, the end and the completion of a chunk, the count-queue fill,
and handler starts (R20, R54 to R57, R156, R212, R229, R304, R315, R323, R344, R345, R356).
-/

namespace Sys2Proof.Machine

/-! ## The count-queue fill (R156, R345) -/

/-- CQFILL: enters the loom's fill; frozen while it holds 16 commands. -/
def execCqfill (q : BitVec 2) (seg : BitVec 12) (o : BitVec 6) (cnt : BitVec 5) (s : State) :
    Host.Outcome State Fault Refusal :=
  let c := { s.newCmd .cqfill [s.rS o] none { wm := 0#8, aq := false, rl := false } 0 with
    ac := seg.toNat, dest := q.toNat, rows := cnt.toNat + 1 }
  .next (if (s.loom s.cur.loom).full .fill then s.hold
    else s.updCmds s.cur.loom .fill (fun l => l ++ [c]))
/-- Offset of entry i. -/
def Cmd.entryAt (c : Cmd) (i : Nat) : Nat := (c.args.headD 0#64).toNat + 4 * i
/-- The next chunk of a fill: whole entries of 4 bytes. -/
def State.fillPlan (s : State) (l : Nat) (c : Cmd) : Plan :=
  let i := c.cursor.toNat
  let lim := s.chunkOf l c.launch
  let k := min (c.rows - i) (max 1 (min (chunkBytes lim / 4) (chunkCycles lim)))
  { units := k, cycles := k, distant := false, fault := none
    reach := [.seg l c.ac c.tag.toNat ((List.range k).map (fun j => c.entryAt (i + j))) 4 4 false] }
/-- The entries of a chunk are appended when it ends, or none of them where the queue has no room. -/
def State.fillRetire (s : State) (l i : Nat) (c : Cmd) (k : Chunk) : State :=
  let at_ := c.cursor.toNat
  let words := (List.range k.units).map (fun j =>
    BitVec.ofNat 32 (leNat (s.cellsAt l c.launch c.ac c.tag.toNat (c.entryAt (at_ + j)) 4)))
  let q := Tab.get (s.loom l).cq c.dest []
  if 16 < q.length + words.length then s.stopChunk l .fill i c (0x20A, 1, 0#64)
  else
    (s.updLoom l (fun x => { x with cq := Tab.put x.cq c.dest (q ++ words) })).updCmd l .fill i (fun c =>
      { c with cursor := BitVec.ofNat 64 (at_ + k.units), done := c.rows ≤ at_ + k.units })

/-! ## Grants (R54, R56, R356) -/

/-- The next chunk of a command, with row indices. -/
def State.plan (s : State) (l : Nat) (e : Engine) (c : Cmd) (most : Nat) : Plan × List Nat :=
  match e with
  | .matrix => ((s.matrixReady l c).matrixPlan l, [])
  | .shuttle => s.shuttlePlan l c most
  | .jacquard => (s.jacquardPlan l c most, [])
  | .fill => (s.fillPlan l c, [])
/-- Looms that own what a chunk reaches. -/
def Reach.owner (r : Reach) (l : Nat) : Nat :=
  match r with
  | .seg o _ _ _ _ _ _ => o
  | .shared w _ _ => wordOwner l w
  | .far _ _ _ => l
/-- Does a command reach a contained loom other than its own, or a rank there (R323)? -/
def State.lostPeer (s : State) (l : Nat) (c : Cmd) (rs : List Reach) : Bool :=
  rs.any (fun r => r.owner l ≠ l && ((s.loom (r.owner l)).contained || s.lostLoom c.launch (r.owner l))) ||
  (c.op == .reduce && (List.range (groupSize c.rn1)).any (fun p =>
    match (s.tenancy (s.cmdTenancy l c)).rank (groupId c.rn1) p with
    | some (d, x) => d = s.deviceNumber.toNat && x ≠ l && (s.loom x).contained
    | none => false))
/-- A command whose peer is lost is dropped: its token is set, and record 0xB02 is written. -/
def State.dropLost (s : State) (l : Nat) (e : Engine) (i : Nat) (c : Cmd) : State :=
  let s1 := s.withdrawOf l (engineAgent e) c.stamp
  ((s1.recordAt (portNumber l) (s.cmdTenancy l c) (engineAgent e) c.lane 1 3 0xB02 0#14 c.pick c.cursor.toNat 0#64
    (some c.launch)).removeCmd l e i).cmdToken l c
/-- Free bytes, fresh ones. -/
def State.freeBytes (s : State) (n : Nat) : List Byte × State :=
  ((List.range n).map (fun j => (Config.freeValue (s.free + j)).extractLsb' 0 8), { s with free := s.free + n })
/-- What a command dropped in the middle of a chunk has written past its cursor is not defined: what that chunk names to be written, in
segments, in shared banks and in windows, takes free values (R323, R262). -/
def State.undefine (s : State) (l : Nat) (c : Cmd) (rs : List Reach) : State :=
  rs.foldl (fun s r => match r with
    | .seg o seg tag offs size _ true => offs.foldl (fun s off =>
        let b := s.freeBytes size
        b.2.segWrite o c.launch seg tag off b.1) s
    | .shared w size true =>
      let b := s.freeBytes size
      if (s.loom (wordOwner l w)).contained then s else b.2.bankWrite l c.launch (s.cmdTenancy l c) w b.1
    | .far d size true =>
      let b := s.freeBytes size
      b.2.sendFar (b.2.shuttleFar l c d b.1 false)
    | _ => s) s
/-- The command asks again in the next cycle. -/
def State.postpone (s : State) (l : Nat) (e : Engine) (i : Nat) : State :=
  s.updCmd l e i (fun c => { c with requested := some (s.cycle + 1) })
/-- pushout: pushes the segment when it is resident and unpinned, and completes when the push has performed (R230). -/
def State.pushoutStep (s : State) (l i : Nat) (c : Cmd) : State :=
  let o := ownerOf l c.rd
  let seg := ((s.loom o).run c.launch).bind (fun r => Tab.find? r.segs (descSeg c.rd))
  let end_ := s.updCmd l .shuttle i (fun c => { c with done := true })
  match seg with
  | none => end_
  | some g =>
    if c.active then if g.state = .pushing then s.postpone l .shuttle i else end_
    else if g.state = .resident && g.pins = 0 then
      if (s.loom o).transfer.isSome then s.postpone l .shuttle i
      else ((s.beginPush o c.launch (s.cmdTenancy l c) (.base (descSeg c.rd))).updCmd l .shuttle i (fun c => { c with active := true })).postpone
        l .shuttle i
    else end_
/-- Is there a place for a post in its owner's landing queue? -/
def State.postFits (s : State) (l i : Nat) (c : Cmd) : Bool :=
  s.landingFits (ownerOf l c.rd) (c.waitedSince.getD s.cycle, c.stamp, l, i)
/-- The first fault of a chunk's reaches: the overlays that one of them makes leave fewer for the next (R379). -/
def State.firstFault (s : State) (l id t : Nat) (rs : List Reach) : Option ChunkFault :=
  match rs with
  | [] => none
  | r :: rest =>
    match s.reachFault l id t r with
    | some f => some f
    | none =>
      State.firstFault (match r with
        | .seg o seg tag offs size align write =>
          s.counting o id { seg := seg, tag := tag, offs := offs, size := size, align := align, write := write }
        | _ => s) l id t rest
/-- The chunk begins: the command's first one performs its acquire (R212), and its segments are pinned. Where its duration is open it
is no longer than the cycles of sys.chunk (R54, R287). -/
def State.beginChunk (s : State) (l : Nat) (e : Engine) (i : Nat) (c : Cmd) (p : Plan) (idx : List Nat) (ns : OwnedNeeds) :
    State :=
  let s1 := if c.aq && !c.active then s.performEarlier l c.scope else s
  let s2 := s1.pinAll c.launch ns true
  let d := s2.drawTime .chunk
  let exact := e = .matrix && !p.distant
  let most := max p.cycles (chunkCycles (s.chunkOf l c.launch))
  let k : Chunk :=
    { units := p.units, endsAt := s.cycle + max 1 (if exact then p.cycles else min (p.cycles + d.1) most), pins := ns, index := idx }
  (if exact then s2 else d.2).updCmd l e i (fun c => { s2.matrixReady l c with
    active := true, begun := c.begun || c.op ≠ .mmag, chunk := some k, requested := none, waitedSince := none })
/-- The needs of a chunk are asked for; where every owner grants, the command goes on, waiting on nothing. -/
def State.grantThen (s : State) (l : Nat) (e : Engine) (i : Nat) (c : Cmd) (p : Plan) (go : OwnedNeeds → State → State) : State :=
  let ns := gatherNeeds (p.reach.flatMap (fun r => s.reachNeeds c.launch r))
  match s.request l (engineAgent e) c.launch c.stamp ns with
  | (false, s1) => s1.postpone l e i
  | (true, s1) => go ns (s1.withdrawOf l (engineAgent e) c.stamp)
/-- Has a command of a stream's port to wait with its acquire: words of the stream's signals, which come before it, have still to go out
(R166, R272)? -/
def State.signalsAhead (s : State) (l : Nat) (c : Cmd) : Bool :=
  1280 ≤ l && c.aq && !c.active && (s.tenancy (l - 1280)).signals ≠ []
/-- The reads by which the reach of a command's next chunk is known: the index word of the row of a gthr or sctr with which it begins,
and of a jsat the number of variables that node 1 holds. -/
def State.plannedReads (s : State) (l : Nat) (c : Cmd) : List Reach :=
  if c.indexed then (s.chunkBeats l c 1).flatMap (c.indexReach l)
  else if c.op = .jsat then ((s.jbinding l c).map (fun b => Reach.seg l b.node 0 [24] 4 1 false)).toList
  else []
/-- A fault of the reach of a command's next chunk stops it at the boundary. Where the fault rests on what has been read to know the
reach, that is checked first, as every read is: a bad line there is what stops the command (R369 to R371). What Table 24.6 says of the
segment alone rests on none. -/
def State.stopReach (s : State) (l : Nat) (e : Engine) (i : Nat) (c : Cmd) (f : ChunkFault) : State :=
  let t := s.cmdTenancy l c
  let rs := if [0x212, 0x213, 0x215, 0x302].contains f.1 then []
    else (s.plannedReads l c).filter (fun r =>
      (s.reachFault l c.launch t r).isNone && s.needsMet c.launch (s.reachNeeds c.launch r))
  match s.reachReads l c.launch t false rs with
  | (some g, s1) => s1.stopChunk l e i c g
  | (none, s1) => s1.stopChunk l e i c f
/-- A command presents its next chunk. A post asks for its place in the landing queue before its segments; a reduce reads its
source, for its partners, once its segments are granted and its acquire has performed (R212, R272). -/
def State.present (s : State) (l : Nat) (e : Engine) (i : Nat) (c : Cmd) : State :=
  let t := s.cmdTenancy l c
  let full := s.plan l e c 4096
  let d := s.drawTime .chunk
  let part := if full.1.distant && 1 < full.1.units then s.plan l e c (1 + d.1 % full.1.units) else full
  let s0 := if full.1.distant && 1 < full.1.units then d.2 else s
  let p := part.1
  if s.signalsAhead l c then s.postpone l e i
  else if s.lostPeer l c p.reach then s.dropLost l e i c
  else
    match p.fault, s.firstFault l c.launch t p.reach, if e = .jacquard then none else s.partialWrite l c.launch t p.reach with
    | some f, _, _ => s.stopChunk l e i c f
    | none, some f, _ => s.stopReach l e i c f
    | none, none, some f => s.stopChunk l e i c f
    | none, none, none =>
      if c.op = .pushout then s.pushoutStep l i c
      else
        let s1 := s0.updCmd l e i (fun c => { c with begun := c.begun || c.op ≠ .mmag })
        let begin_ := fun (ns : OwnedNeeds) (s : State) => s.beginChunk l e i c p part.2 ns
        match c.op with
        | .recall => s1.grantThen l e i c p (fun _ s => s.updCmd l e i (fun c => { c with done := true }))
        | .post =>
          let s2 := s1.updCmd l e i (fun c => { c with waitedSince := some (c.waitedSince.getD s.cycle) })
          if s2.postFits l i c then s2.grantThen l e i c p begin_
          else (s2.withdrawOf l (engineAgent e) c.stamp).postpone l e i
        | .reduce =>
          (s1.rankBegins l c).grantThen l e i c p (fun ns s =>
            let s := if c.aq && !c.active then s.performEarlier l c.scope else s
            match s.reduceStand l i { c with begun := true } ((s.chunkBeats l c 1).headD { row := 0, byte := 0, n := 0, index := 0 }) with
            | (.differ, s2) => (s2.stopPartners l c).stopChunk l e i c (0x608, 1, 0#64)
            | (.bad f, s2) => s2.stopChunk l e i c f
            | (.wait, s2) => s2.postpone l e i
            | (.ready, s2) => begin_ ns s2)
        | _ =>
          s1.grantThen l e i c p (fun ns s =>
            if e = .jacquard && !c.work.begun then
              match s.jcheck l c with
              | (some f, s2) => s2.stopChunk l e i c f
              | (none, s2) => begin_ ns s2
            else begin_ ns s)
/-- May a command present a chunk now? -/
def Cmd.presents (c : Cmd) (cycle : Nat) : Bool :=
  !c.stopped && !c.parked && !c.done && c.chunk.isNone && match c.requested with
  | some x => x ≤ cycle
  | none => false
/-- Is a sequencer out of the ready set, so that it reaches its switch point at once (R286)? -/
def Seq.away (q : Seq) : Bool :=
  match q.status with
  | .waiting _ => true
  | .stopped _ => true
  | _ => false
/-- Has every active sequencer reached its switch point (R286)? -/
def Loom.seqsReached (l : Loom) (w : Switching) : Bool :=
  l.seqs.all (fun p => p.2.status = .dormant || w.reached.contains p.1 || p.2.away)
/-- Did every active sequencer stop at a yield, so that the switch is light (R286)? With none active it is full. -/
def Loom.allYielded (l : Loom) (w : Switching) : Bool :=
  l.seqs.any (fun p => p.2.status ≠ .dormant) &&
  l.seqs.all (fun p => p.2.status = .dormant || w.atYield.contains p.1)
/-- Is a scaled command left that a light switch orphans (R359)? -/
def Loom.orphanLeft (l : Loom) (w : Switching) : Bool := l.allYielded w && l.scaledCmd.any (fun p => !p.1.done)
/-- Does the matrix engine go on for the command that a light switch has orphaned: its slices are delivered, and it completes, before
the saving begins (R359; DEDUCED, log 46)? -/
def Loom.orphanGoesOn (l : Loom) : Bool :=
  match l.switching, l.scaledHead with
  | some w, some (c, sc) =>
    w.savesAt.isNone && w.restoresAt.isNone && l.allYielded w && sc.orphaned && !c.done && !c.stopped
  | _, _ => false
/-- Do the engines of a loom begin no chunk, for a switch? DESIGN CHOICE (log 36): until every sequencer has reached its switch
point they go on, since one that is frozen on an engine continues (R286). -/
def Loom.enginesHalt (l : Loom) : Bool :=
  match l.switching with
  | none => false
  | some w => w.restoresAt.isSome || l.seqsReached w
/-- The command that an engine serves next, of those that may present a chunk: the head of a queue that runs one at a
time, and of the Shuttle's first four the one that has asked longest (R225). An engine has one chunk in progress, and begins none for
a switch to which every sequencer has come (R285). -/
def Loom.serves (l : Loom) (e : Engine) (cycle : Nat) : Option Nat :=
  let q := l.cmds e
  if q.any (fun c => c.chunk.isSome) || (l.enginesHalt && !(e = .matrix && l.orphanGoesOn)) then none
  else
    let one := fun (i : Option Nat) =>
      i.bind (fun i => (q[i]?).bind (fun c => if c.presents cycle && !c.portFull then some i else none))
    match e with
    | .matrix => one (some 0)
    | .fill => one (some 0)
    | .jacquard => one (jacquardNext q)
    | .shuttle =>
      let ready := ((q.take 4).zipIdx).filter (fun p => p.1.presents cycle)
      (ready.foldl (fun (m : Option (Nat × Nat)) p =>
        let x := p.1.requested.getD 0
        match m with
        | some y => if x < y.1 then some (x, p.2) else m
        | none => some (x, p.2)) none).map (·.2)
/-- CHUNK_GRANT: the engine presents the next chunk of a command, and the Spindle grants it or has it wait. A stream
sequencer's Shuttle stands at loom number 1280 + tenancy. -/
def execChunkGrant (loom : Nat) (eng : Engine) (s : State) : Host.Outcome State Fault Refusal :=
  if 1344 ≤ loom then .fault .noSuchAgent
  else .next (match (s.loom loom).serves eng s.cycle with
    | none => s
    | some i =>
      match ((s.loom loom).cmds eng)[i]? with
      | none => s
      | some c => s.present loom eng i c)

/-! ## Ends (R54, R55) -/

/-- The effects of a chunk. -/
def State.retireChunk (s : State) (l : Nat) (e : Engine) (i : Nat) (c : Cmd) (k : Chunk) : State :=
  match e with
  | .matrix => s.matrixRetire l i c
  | .shuttle => s.shuttleRetire l i c k
  | .jacquard => s.jacquardRetire l i c k
  | .fill => s.fillRetire l i c k
/-- What a chunk reads, as it was granted: for itself, and to carry it on as it is (R368). -/
def State.chunkReach (s : State) (l : Nat) (e : Engine) (c : Cmd) (k : Chunk) : List Reach × List Reach :=
  match e with
  | .jacquard => ([], [])
  | .shuttle =>
    let bs := ((s.chunkBeats l c k.units).zip (k.index ++ List.replicate 4096 0)).map (fun p => { p.1 with index := p.2 })
    let object := if c.op = .copyb then [Reach.seg (ownerOf l c.rn1) (descSeg c.rn1) 0 [descOff c.rn1] 16 16 false] else []
    if c.op = .reduce then ((bs.flatMap (c.beatReach l)).filter Reach.isWrite, [])
    else (object ++ bs.flatMap (c.indexReach l), bs.flatMap (c.dataReach l))
  | _ => ((s.plan l e c k.units).1.reach, [])
/-- A launch that has ended, and whose last command has left a loom, leaves it: the lines of shared banks that its last chunk has
written are to be scrubbed on their looms too (R383). -/
def State.releaseRun (s : State) (l : Nat) (id : Nat) : State :=
  match Tab.find? s.launches id with
  | some x =>
    if (x.phase = .ending || x.phase = .ended) && ((s.loom l).queues.of id) = [] then
      (loomsOf (clusterOf l)).foldl (fun s o =>
          if (s.loom o).written.any (fun w => w.1 = id) then (s.updLoom o (fun y => y.owe id x.tenancy [])).scrubNear o x.tenancy else s)
        (s.updLoom l (fun y => ({ y with runs := Tab.drop y.runs id } : Loom).settle))
    else s
  | none => s
/-- Has a launch been ended by its function's reset, so that nothing of it retires any more (R396)? -/
def State.launchReset (s : State) (l id : Nat) : Bool :=
  l < 1280 && s.wasReset id
/-- All that a chunk in progress reaches. -/
def State.allReach (s : State) (l : Nat) (e : Engine) (c : Cmd) (k : Chunk) : List Reach :=
  let r := s.chunkReach l e c k
  if e = .jacquard || c.op = .reduce then (s.plan l e c k.units).1.reach else r.1 ++ r.2
/-- CHUNK_RETIRE: a chunk ends. One that reaches a loom that has been contained meanwhile is dropped with its command (R323); an error in
what it read stops the command before the chunk; else its effects perform, and its pins end (R304). The slices
of a product follow one another without a gap (R217). -/
def execChunkRetire (loom : Nat) (eng : Engine) (s : State) : Host.Outcome State Fault Refusal :=
  if 1344 ≤ loom then .fault .noSuchAgent
  else .next (match ((s.loom loom).cmds eng).zipIdx.find? (fun p => p.1.chunk.isSome) with
    | none => s
    | some (c, i) =>
      match c.chunk with
      | none => s
      | some k =>
        if s.launchReset loom c.launch then
          ((s.removeCmd loom eng i).pinAll c.launch k.pins false).releaseRun loom c.launch
        else
        let ended := c.done
        let s0 := s.updCmd loom eng i (fun c => { c with
          chunk := none, requested := some (s.cycle + if eng = .matrix then 1 else 2) })
        let t := s.cmdTenancy loom c
        let reach := s0.chunkReach loom eng c k
        let r1 := s0.reachReads loom c.launch t false reach.1
        let r := if r1.1.isSome then r1 else r1.2.reachReads loom c.launch t true reach.2
        let all := s0.allReach loom eng c k
        if !ended && s.lostPeer loom c all then ((s.undefine loom c all).dropLost loom eng i c).pinAll c.launch k.pins false
        else
        match r.1, ended with
        | some f, false => (r.2.stopChunk loom eng i c f).pinAll c.launch k.pins false
        | some _, true => ((r.2.removeCmd loom eng i).pinAll c.launch k.pins false).releaseRun loom c.launch
        | none, true =>
          (((r.2.retireChunk loom eng i c k).removeCmd loom eng i).pinAll c.launch k.pins false).releaseRun loom c.launch
        | none, false => (r.2.retireChunk loom eng i c k).pinAll c.launch k.pins false)

/-! ## Completion (R212, R238, R239, R248) -/

/-- The command that completes next. -/
def Loom.completes (l : Loom) (e : Engine) : Option (Nat × Cmd) :=
  ((l.cmds e).zipIdx.find? (fun p => p.1.done && p.1.chunk.isNone)).map (fun p => (p.2, p.1))
/-- ENGINE_COMMAND_COMPLETE: with RL = 1 every write performs at the scope first; then the token is set, a jq result waits
for the pick that clears it, and a jgc lets a parked command start again. -/
def execEngineCommandComplete (loom : Nat) (eng : Engine) (s : State) : Host.Outcome State Fault Refusal :=
  if 1344 ≤ loom then .fault .noSuchAgent
  else .next (match (s.loom loom).completes eng with
    | none => s
    | some (i, c) =>
      let s2 := if c.rl then s.shuttleRelease loom c.scope else s
      let s3 := s2.removeCmd loom eng i
      let s4 := match eng with
        | .jacquard =>
          let r : JResult := { stamp := c.stamp, token := c.token.getD 0, dest := c.dest, value := c.work.acc }
          let s4 := s3.updLoom loom (fun x => x.updSeqOf c.seq c.launch (fun q =>
            { q with results := insertBy (fun (a b : JResult) => a.stamp < b.stamp) r q.results }))
          if c.op = Mnemonic.jgc then s4.updCmds loom .jacquard (fun q => restartParked q c.launch s.cycle) else s4
        | _ => s3
      (s4.cmdToken loom c).releaseRun loom c.launch)

/-! ## Handler starts (R20, R229, R344) -/

/-- The lowest-numbered dormant sequencer of a launch on a loom. -/
def Loom.dormantOf (l : Loom) (r : LoomRun) : Option (Nat × Seq) :=
  List.find? (fun (p : Nat × Seq) => (l.seq p.1).status = .dormant) r.records
/-- The oldest message whose launch is not switched out. -/
def Loom.nextMessage (l : Loom) : Option Message :=
  l.landing.find? (fun m => match l.run m.launch with
    | some r => !r.suspended
    | none => true)
/-- HANDLER_START: the oldest message starts its handler, or waits for a sequencer to become dormant. -/
def execHandlerStart (loom : Nat) (s : State) : Host.Outcome State Fault Refusal :=
  if 1280 ≤ loom then .fault .noSuchAgent
  else .next (match (s.loom loom).nextMessage with
    | none => s
    | some m =>
      let taken := s.updLoom loom (fun x => { x with landing := x.landing.erase m })
      match (s.loom loom).run m.launch with
      | none => taken
      | some r =>
        match (s.loom loom).dormantOf r with
        | none => s
        | some (q, rec) =>
          taken.updSeq loom q (fun old =>
            (Seq.activated m.launch (BitVec.ofNat 64 m.entry) [m.payload] rec (s.cycle + 1)).follows old))

end Sys2Proof.Machine
end

