-- ==== Sys2Proof/Machine/Switch.lean ====
section
/-!
DEFINITION. How tenancies share a loom: quanta, switch points, the light and the full switch, and the switch-in (R39, R40,
R79, R138, R285, R286, R338).
-/

namespace Sys2Proof.Machine

/-! ## Who waits for a loom (R285) -/

/-- A tenancy's weight on a loom; 1 until the management controller programs it (log 3). -/
def Loom.weight (l : Loom) (t : Nat) : Nat := (Tab.get l.weights t 1#8).toNat
/-- Has a tenancy a launch on a loom? -/
def Loom.hosts (l : Loom) (t : Nat) : Bool := l.runs.any (fun p => p.2.tenancy = t)
/-- May launches run on a loom now: in service, and no scrub in progress (R322, R383, R403)? -/
def Loom.usable (l : Loom) (cycle : Nat) : Bool :=
  !l.contained && !l.quarantined && !l.offline && l.resetEnds.isNone && match l.scrubEnds with
    | some x => x ≤ cycle
    | none => true
/-- The first waiting tenancy in ascending number after another, modulo 64. -/
def Loom.nextTenancy (l : Loom) (after : Nat) : Option Nat :=
  ((List.range 64).map (fun k => (after + 1 + k) % 64)).find? (fun t =>
    l.holder ≠ some t && l.hosts t && 0 < l.weight t)
/-- A quantum of a tenancy begins: it is counted from the next cycle. -/
def Loom.beginQuantum (l : Loom) (t cycle : Nat) : Loom :=
  { l with holder := some t, quantumEnds := cycle + l.weight t * 65536 }

/-! ## Switch points (R39, R40, R286) -/

/-- Does a sequencer stand before the first pick of an iteration, with nothing of a pick left to do? DESIGN CHOICE (log 36): a
branch back to a body's first pick within an iteration stands there too. -/
def Seq.atBoundary (q : Seq) : Bool :=
  q.resuming.isNone && match q.loops with
  | e :: _ => e.first = q.pc.toNat
  | [] => false
/-- Note the sequencers that have reached their switch points. -/
def Loom.noteReached (l : Loom) : Loom :=
  match l.switching with
  | none => l
  | some w =>
    if w.restoresAt.isSome then l
    else
      let new := (l.seqs.filter (fun p => p.2.away && !w.reached.contains p.1)).map (·.1)
      { l with switching := some { w with reached := w.reached ++ new } }
/-- A sequencer stands at its switch point: it issues no more until it is switched in. -/
def Loom.reach (l : Loom) (q : Nat) (yielded : Bool) : Loom :=
  match l.switching with
  | none => l
  | some w =>
    if w.restoresAt.isSome || w.reached.contains q then l
    else
      let w1 := { w with reached := w.reached ++ [q], atYield := if yielded then w.atYield ++ [q] else w.atYield }
      { l with switching := some w1 }
/-- Has every active sequencer reached its switch point, and does no engine run a chunk? -/
def Loom.allReached (l : Loom) (w : Switching) : Bool :=
  l.seqsReached w &&
  !(l.queues.matrix ++ l.queues.shuttle ++ l.queues.jacquard ++ l.queues.fill).any (fun c => c.chunk.isSome)

/-! ## Saving (R39, R40, R79, R138) -/

/-- A wait's timeout as the cycles that remain, and back (R386). -/
def Seq.mapExpiry (q : Seq) (f : Nat → Nat) : Seq :=
  match q.status with
  | .waiting (.barrier r d (some x) armed) => { q with status := .waiting (.barrier r d (some (f x)) armed) }
  | _ => q
/-- What a light switch saves of an active sequencer: the program counter and s1 to s8; the rest is as R17 gives. The distances
between bank commands go on (R353), and a release that it has made at sys scope still precedes its next host write (R270). -/
def Seq.lightened (q : Seq) : Seq :=
  if q.status = .dormant then q
  else
    { Seq.reset with
      status := q.status, launch := q.launch, pc := q.pc, prio := q.prio, alloc := q.alloc, banks := q.banks
      reopen := q.reopen, activeSince := q.activeSince, past := q.past + q.steps, sysReleased := q.sysReleased
      s := q.s.filter (fun p => 1 ≤ p.1 && p.1 ≤ 8) }
/-- What a full switch saves: everything; the banks of `reopen` that were open are noted in sys.vclosed at once, so that a wrsys of
sys.vclosed in flight then lands over them after the switch-in: R138 does not say which remains (DESIGN CHOICE, log 82). -/
def Seq.putAway (q : Seq) (open_ : BitVec 20) (cycle : Nat) : Seq :=
  if q.status = .dormant then q
  else { q.mapExpiry (fun x => x - cycle) with vclosed := q.vclosed ||| (q.reopen &&& open_) }
/-- The scheduled banks that stand open. -/
def Loom.openBanks (l : Loom) : BitVec 20 :=
  l.banks.foldl (fun m p => if p.2.row.isSome then m ||| (1#20 <<< p.1) else m) 0#20
/-- Banks of a tenancy's launches on a loom. -/
def Loom.tenancyBanks (l : Loom) (t : Nat) : List Nat :=
  (l.runs.filter (fun p => p.2.tenancy = t)).flatMap (fun p => p.2.ownBanks)
/-- A zeroed segment returns to unborn at a light switch (R41). -/
def Segment.emptied (g : Segment) : Segment :=
  if g.zeroed then { g with state := .unborn, home := 0, ref := false, data := [], poison := [] } else g
/-- The launches of a tenancy on a loom, switched out: at a light switch the overlays of zeroed segments go with their base
(R41, R73). -/
def LoomRun.putAway (r : LoomRun) (t : Nat) (light : Bool) : LoomRun :=
  let zeroed := fun (seg : Nat) => ((Tab.find? r.segs seg).map (·.zeroed)).getD false
  if r.tenancy ≠ t then r
  else if light then { r with suspended := true, segs := Tab.map r.segs Segment.emptied
                              overlays := r.overlays.filter (fun o => !zeroed o.seg) }
  else { r with suspended := true }
/-- The requests of a tenancy's launches on a loom are withdrawn. -/
def State.withdraw (s : State) (l t : Nat) : State :=
  let mine := ((s.loom l).runs.filter (fun p => p.2.tenancy = t)).map (·.1)
  (loomsOf (clusterOf l)).foldl (fun s o =>
    s.updLoom o (fun x => x.dropWaiters (fun w => w.loom = l && mine.contains w.launch))) s
/-- What a full switch saves of a loom (R40). -/
def Loom.fullSaved (l : Loom) (cycle : Nat) : Saved :=
  { seqs := Tab.map l.seqs (fun q => q.putAway l.openBanks cycle)
    acc := l.acc, scaleA := l.scaleA, scaleB := l.scaleB, scaleConst := l.scaleConst, scaleZ := l.scaleZ
    scaleLoads := l.scaleLoads, cq := l.cq, queues := l.queues }
/-- What a light switch saves (R39): sequencers. What the tiles, the scale entries and the count queues hold when the launch comes
back is free (log 46), and no engine command is left. -/
def Loom.lightSaved (l : Loom) (draw : Nat) : Saved :=
  { seqs := Tab.map l.seqs Seq.lightened
    acc := Config.lostTiles draw, scaleA := Config.lostScales draw, scaleB := Config.lostScales (draw + 1), scaleConst := []
    scaleZ := (Config.freeValue draw).extractLsb' 0 8, scaleLoads := []
    cq := (List.range 4).map (fun k => (k, Config.lostQueue draw k)), queues := Queues.empty }
/-- A scheduled bank at a switch: its row is closed, and each of its row groups has seen a switch (R79, R373). -/
def Loom.closeBank (l : Loom) (b : Nat) : Loom :=
  { l with banks := Tab.put l.banks b { l.bank b with row := none, switched := 0xFF#8 } }
/-- The outgoing tenancy's state is saved and the loom is free. A message in its landing queue waits there. -/
def Loom.save (l : Loom) (w : Switching) (cycle draw : Nat) : Loom :=
  let t := w.outgoing
  let light := l.allYielded w
  let l1 := (l.tenancyBanks t).foldl Loom.closeBank l
  ({ l1 with
    saved := Tab.put l.saved t (if light then l.lightSaved draw else l.fullSaved cycle)
    runs := Tab.map l.runs (fun r => r.putAway t light)
    seqs := [], acc := [], scaleA := [], scaleB := [], scaleConst := [], scaleZ := 0#8, scaleLoads := [], portDue := none
    cq := [], queues := Queues.empty
    holder := none, lastHolder := t, switching := none } : Loom).settle

/-! ## Restoring (R285, R286) -/

/-- A sequencer that is switched in: eligible from the next cycle; its timeout counts on. -/
def Seq.broughtBack (q : Seq) (cycle : Nat) : Seq :=
  if q.status = .dormant then q
  else { q.mapExpiry (fun x => x + cycle) with eligibleFrom := cycle + 1 }
/-- The incoming tenancy holds the loom. The trace memory of another tenancy is emptied (R301). -/
def Loom.restore (l : Loom) (t cycle : Nat) : Loom :=
  let v : Saved := Tab.get l.saved t
    { seqs := [], acc := [], scaleA := [], scaleB := [], scaleConst := [], scaleZ := 0#8, scaleLoads := [], cq := []
      queues := Queues.empty }
  ({ l with
    saved := Tab.drop l.saved t
    runs := Tab.map l.runs (fun r => if r.tenancy = t then { r with suspended := false } else r)
    seqs := Tab.map v.seqs (fun q => q.broughtBack cycle)
    acc := v.acc, scaleA := v.scaleA, scaleB := v.scaleB, scaleConst := v.scaleConst, scaleZ := v.scaleZ
    scaleLoads := v.scaleLoads, cq := v.cq, queues := v.queues
    trace := if l.lastHolder = t then l.trace else []
    switching := none } : Loom).beginQuantum t cycle
/-- The switch-in of the next waiting tenancy begins, if there is one. -/
def State.beginSwitchIn (s : State) (l : Nat) : State :=
  match (s.loom l).nextTenancy (s.loom l).lastHolder with
  | none => s
  | some t =>
    let (e, s1) := s.endOf .switchIn
    let w := fun (x : Loom) => ({ outgoing := x.lastHolder, incoming := some t, reached := [], atYield := [],
                                  lightLimit := none, fullLimit := none, savesAt := none, restoresAt := some e } : Switching)
    s1.updLoom l (fun x => { x with switching := some (w x) })

/-! ## Events -/

/-- The first time that a weight of 0 keeps a launch from a loom is reported (R338): one that is placed there, or one that waits
for it. -/
def State.reportStall (s : State) (l t : Nat) : State :=
  let told := fun (s : State) (id : Nat) => s.recordAt l t 15 15 3 3 0xA2C 0#14 0 0 0#64 (some id)
  let placed := (s.loom l).runs.filter (fun p => p.2.tenancy = t && !p.2.stallReported)
  let waiting := s.launches.filter (fun p => p.2.tenancy = t && p.2.phase = .waiting && !p.2.stalled.contains l &&
    (s.plannedLooms p.2).contains l)
  let s1 := placed.foldl (fun s p =>
    told (s.updLoom l (fun x => x.updRun p.1 (fun r => { r with stallReported := true }))) p.1) s
  waiting.foldl (fun s p =>
    told { s with launches := Tab.put s.launches p.1 { p.2 with stalled := l :: p.2.stalled } } p.1) s1
/-- The bound T of R287 for a launch on a loom, `p` being P_max or the node bound: S counts the sequencers that have still to
come to their switch points (R286). -/
def Loom.switchBound (l : Loom) (id : Nat) (r : LoomRun) (p : Nat) : Nat :=
  let active := List.filter (fun (p : Nat × Seq) => p.2.status ≠ .dormant) l.seqs
  let going := active.filter (fun p => !p.2.away)
  let mine := (going.filter (fun p => p.2.launch = id)).map (fun p => p.2.prio.toNat)
  let s := (going.filter (fun p => mine.any (fun k => k ≤ p.2.prio.toNat))).length
  p * s + 64 + chunkCycles r.chunk + 200 +
    (active.length * (1024 + 128 * (active.map (fun p => p.2.alloc)).foldl max 0) + 255) / 256
/-- The latest end of a switch of a tenancy's launches, none where one has no bound. -/
def Loom.switchLimit (l : Loom) (t cycle : Nat) (bound : LoomRun → Option Nat) : Option Nat :=
  let rs := l.runs.filter (fun p => p.2.tenancy = t)
  if rs.any (fun p => (bound p.2).isNone) then none
  else some (cycle + (rs.map (fun p => l.switchBound p.1 p.2 ((bound p.2).getD 0))).foldl max 0)
/-- A loom asks its holder to switch: the sequencers out of the ready set have reached their switch points already. -/
def Loom.requestSwitch (l : Loom) (t cycle : Nat) : Loom :=
  let w : Switching :=
    { outgoing := t, incoming := none, reached := [], atYield := [], lightLimit := l.switchLimit t cycle (·.nodeBound)
      fullLimit := l.switchLimit t cycle (·.pmax), savesAt := none, restoresAt := none }
  ({ l with switching := some w } : Loom).noteReached
/-- QUANTUM_EXPIRY: with no other tenancy waiting a new quantum begins, except under a weight of 0; else the loom requests a
switch. A loom that nobody holds takes the next waiting tenancy. -/
def execQuantumExpiry (loom : Nat) (s : State) : Host.Outcome State Fault Refusal :=
  if 1280 ≤ loom then .fault .noSuchAgent
  else
    let l := s.loom loom
    .next (if l.switching.isSome then s
      else match l.holder with
      | none => if l.usable s.cycle then s.beginSwitchIn loom else s
      | some t =>
        if s.cycle < l.quantumEnds then s
        else if l.weight t = 0 then (s.reportStall loom t).updLoom loom (fun x => x.requestSwitch t s.cycle)
        else match l.nextTenancy t with
          | some _ => s.updLoom loom (fun x => x.requestSwitch t s.cycle)
          | none => s.updLoom loom (fun x => x.beginQuantum t s.cycle))
/-- A light switch orphans the scaled command whose sequencer stopped at its yield (R359). -/
def State.orphanAtYield (s : State) (l : Nat) (w : Switching) : State :=
  match (s.loom l).scaledCmd with
  | some (c, sc) => if (s.loom l).allYielded w && !sc.orphaned then s.orphan l c.seq else s
  | none => s
/-- An end that a bound cuts off: no earlier than the next cycle. -/
def cutTo (limit : Option Nat) (cycle e : Nat) : Nat :=
  match limit with
  | some x => max (min e x) (cycle + 1)
  | none => e
/-- FULL_SWITCH: every active sequencer stands at its switch point and the engines at chunk boundaries, so the saving
begins, before a light switch once the scaled command that it orphans has completed; when it ends, the state is saved and the loom is
free. The switch is light when every sequencer stopped at a yield, and then it saves program counters and s1 to s8 of the sequencers
only. A tenancy whose weight has become 0 under the request stays switched out, and is reported (R338). -/
def execFullSwitch (loom : Nat) (s : State) : Host.Outcome State Fault Refusal :=
  if 1280 ≤ loom then .fault .noSuchAgent
  else .next (match (s.loom loom).switching with
    | none => s
    | some w =>
      if w.restoresAt.isSome then s
      else match w.savesAt with
      | none =>
        if (s.loom loom).allReached w then
          if (s.loom loom).orphanLeft w then s.orphanAtYield loom w
          else
          let (e, s1) := s.endOf .switchOut
          let limit := if (s.loom loom).allYielded w then w.lightLimit else w.fullLimit
          s1.updLoom loom (fun x =>
            { x with switching := x.noteReached.switching.map (fun w => { w with savesAt := some (cutTo limit s.cycle e) }) })
        else s
      | some _ =>
        let s0 := ({ s.withdraw loom w.outgoing with free := s.free + 2 } : State).updLoom loom (fun x => x.save w s.cycle s.free)
        let s1 := if (s.loom loom).weight w.outgoing = 0 then s0.reportStall loom w.outgoing else s0
        if (s1.loom loom).usable s.cycle then s1.beginSwitchIn loom else s1)
/-- SWITCH_IN_COMPLETE: the next tenancy's state is restored, and the waiters that phases have released meanwhile are re-inserted
(R385); its quantum and its C24 count from the next cycle. A tenancy whose weight
has become 0 meanwhile stays switched out (R338). -/
def execSwitchInComplete (loom : Nat) (s : State) : Host.Outcome State Fault Refusal :=
  if 1280 ≤ loom then .fault .noSuchAgent
  else .next (match (s.loom loom).switching with
    | none => s
    | some w =>
      match w.restoresAt, w.incoming with
      | some _, some t =>
        (s.updLoom loom (fun x =>
          if x.hosts t && 0 < x.weight t then x.restore t s.cycle else { x with switching := none })).rejoinWaiters loom
      | _, _ => s)

end Sys2Proof.Machine
end

