-- ==== Sys2Proof/Machine/Tags.lean ====
section
/-!
DEFINITION. Context tags: taga, tret, tfold and tset, the cluster's allocator, and the folds and discards of a tag's overlays
(R65 to R69, R381).
-/

namespace Sys2Proof.Machine

/-! ## The allocator (R65, R66) -/

/-- Key of a tenancy's allocator in a cluster. -/
def allocatorKey (cluster t : Nat) : Nat := cluster * 64 + t
/-- A tenancy's allocator in a cluster. -/
def State.allocator (s : State) (cluster t : Nat) : Allocator :=
  Tab.get s.allocators (allocatorKey cluster t) Allocator.reset
/-- Change an allocator. -/
def State.updAllocator (s : State) (cluster t : Nat) (f : Allocator → Allocator) : State :=
  { s with allocators := Tab.put s.allocators (allocatorKey cluster t) (f (s.allocator cluster t)) }
/-- Tags that a launch holds: those live, those granted to a taga that has still to issue, and those that a tret or tfold has
not freed yet. -/
def Allocator.held (a : Allocator) (id : Nat) : Nat :=
  (a.live.filter (fun p => p.2 = id)).length + (a.promised.filter (fun p => p.2 = id)).length +
    (a.ops.filter (fun o => o.launch = id)).length
/-- The lowest-numbered free tag. -/
def Allocator.lowest (a : Allocator) : Option Nat :=
  ((List.range 4095).map (· + 1)).find? (fun t =>
    (Tab.find? a.live t).isNone && (Tab.find? a.promised t).isNone && !a.ops.any (fun o => o.tag = t))
/-- The tag that a launch may have next: the lowest free one, within its quota (R66). -/
def Allocator.grant (a : Allocator) (id quota : Nat) : Option Nat := if quota ≤ a.held id then none else a.lowest
/-- A tag becomes live for a launch: its taga issues (R65). -/
def Allocator.makeLive (a : Allocator) (tag id : Nat) : Allocator :=
  { a with live := Tab.put a.live tag id, promised := Tab.drop a.promised tag }
/-- A tag is granted to a taga of a launch. -/
def Allocator.promise (a : Allocator) (tag id : Nat) : Allocator := { a with promised := Tab.put a.promised tag id }
/-- The quota of the current launch: that of its loomset on the loom. DESIGN CHOICE (log 75): where loomsets of one launch share a cluster
and differ in TAGQUOTA, the issuing loom's own binds its tagas, and decides of 0x305. -/
def State.myQuota (s : State) : Nat := (s.myRun.map (·.quota)).getD 0

/-- The current sequencer's request has to be refused, the quota being used up: it is served when the launch frees a tag, the oldest
first by the cycle at which each was refused (R66). -/
def State.stallMe (s : State) : State :=
  s.updAllocator (clusterOf s.cur.loom) s.myTenancy (fun a => { a with stalled := a.stalled ++
    [{ since := s.cycle, loom := s.cur.loom, seq := s.cur.seq, launch := s.me.launch, quota := s.myQuota }] })
/-- The current sequencer's request, refused and not served yet. -/
def State.myStall (s : State) : Option TagStall :=
  (s.allocator (clusterOf s.cur.loom) s.myTenancy).stalled.find? (fun x =>
    x.loom == s.cur.loom && x.seq == s.cur.seq && x.launch == s.me.launch)

/-- TAGA: a tag that the allocator has granted, or grants now; until it answers the pick holds; with the quota used up the
sequencer leaves the ready set, and with a quota of 0, or where no tag can come, it stops. -/
def execTaga (d : BitVec 6) (s : State) : Host.Outcome State Fault Refusal :=
  let id := s.me.launch
  let c := clusterOf s.cur.loom
  let t := s.myTenancy
  .next (if s.myQuota = 0 then s.stopSlot 0x305 1 0#64
    else match s.me.granted with
    | some g =>
      ((s.updAllocator c t (fun a => a.makeLive g.toNat id)).resultS d.toNat 1 (g.zeroExtend 64)).updMe
        (fun q => { q with asked := none, granted := none })
    | none =>
      if s.me.noTag then s.stopSlot 0x306 1 0#64
      else if s.me.asked.any (fun at_ => s.cycle < at_) then s.hold
      else match s.myStall, (s.allocator c t).grant id s.myQuota with
      | some x, _ => s.waitFor (.tag x.since)
      | none, some g =>
        ((s.updAllocator c t (fun a => a.makeLive g id)).resultS d.toNat 1 (BitVec.ofNat 64 g)).updMe
          (fun q => { q with asked := none })
      | none, none => s.stallMe.waitFor (.tag s.cycle))
/-- A tret or tfold begins: the tag is live no more, and the sequencer waits until it is freed. -/
def State.releaseTag (s : State) (a : BitVec 6) (fold : Bool) : State :=
  let tag := ((s.rS a).extractLsb' 0 12).toNat
  let id := s.me.launch
  let c := clusterOf s.cur.loom
  let t := s.myTenancy
  if tag = 0 || !s.tagLive s.cur.loom t id tag then s.stopSlot 0x301 1 (operandOf 0 tag 0)
  else
    let (ends, s1) := s.endOf .tagOp
    let op : TagOp :=
      { tag := tag, fold := fold, launch := id, loom := s.cur.loom, seq := s.cur.seq, stamp := s.cycle, endsAt := ends,
        folding := [] }
    (s1.updAllocator c t (fun a => { a with live := Tab.drop a.live tag, ops := a.ops ++ [op] })).thenWait (.tagOp tag)
/-- TRET. -/
def execTret (a : BitVec 6) (s : State) : Host.Outcome State Fault Refusal := .next (s.releaseTag a false)
/-- TFOLD. -/
def execTfold (a : BitVec 6) (s : State) : Host.Outcome State Fault Refusal := .next (s.releaseTag a true)
/-- TSET: ct from the next step. -/
def execTset (a : BitVec 6) (s : State) : Host.Outcome State Fault Refusal :=
  .next (s.result .ct 1 (BitVec.allOnes 1024) ((s.rS a).zeroExtend 1024))

/-! ## Grants and deadlock (R66, R381) -/

/-- Every sequencer of a launch on a loom, switched out or not. -/
def Loom.seqsOf (l : Loom) (id : Nat) : List Seq :=
  (List.map (fun (p : Nat × Seq) => p.2) l.seqs ++
    l.saved.flatMap (fun v => List.map (fun (p : Nat × Seq) => p.2) v.2.seqs)).filter
    (fun q => q.launch = id && q.status ≠ .dormant)
/-- Is every active sequencer of a launch in a cluster stalled in taga, or stopped, with no tret or tfold in progress? -/
def State.tagDeadlock (s : State) (cluster t id : Nat) : Bool :=
  !((s.allocator cluster t).ops.any (fun o => o.launch = id)) &&
  (loomsOf cluster).all (fun l => ((s.loom l).seqsOf id).all (fun q =>
    match q.status with
    | .waiting (.tag _) => true
    | .stopped _ => true
    | _ => false))
/-- The stalled request that can be served, the oldest first; or the one that must stop. -/
inductive TagService where
  | grant (at_ : TagStall)
  | stop (at_ : TagStall)
  | none
deriving DecidableEq, Repr
/-- What an allocator does next for its stalled requests. -/
def State.tagService (s : State) (cluster t : Nat) : TagService :=
  let a := s.allocator cluster t
  let order := sortBy (fun (x y : TagStall) => x.since < y.since || (x.since = y.since && (x.loom < y.loom || (x.loom = y.loom && x.seq ≤ y.seq)))) a.stalled
  match order.find? (fun x => (a.grant x.launch x.quota).isSome) with
  | some x => .grant x
  | none =>
    match order.find? (fun x => s.tagDeadlock cluster t x.launch) with
    | some x => .stop x
    | none => .none
/-- TAG_GRANT: the oldest stalled request that can be served takes the lowest free tag, and its sequencer, where it has left the ready
set, comes back; where no tag can come, the oldest is to stop with 0x306. -/
def execTagGrant (cluster tenancy : Nat) (s : State) : Host.Outcome State Fault Refusal :=
  if 80 ≤ cluster || 64 ≤ tenancy then .fault .noSuchAgent
  else
    let back := fun (x : TagStall) (f : Seq → Seq) =>
      let s1 := s.updAllocator cluster tenancy (fun a => { a with stalled := a.stalled.erase x })
      s1.updLoom x.loom (fun l => l.updSeqOf x.seq x.launch (fun q => f (match q.status with
        | .waiting (.tag _) => q.wake s.cycle
        | _ => q)))
    .next (match s.tagService cluster tenancy with
      | .none => s
      | .stop x => back x (fun q => { q with noTag := true })
      | .grant x =>
        match (s.allocator cluster tenancy).grant x.launch x.quota with
        | none => s
        | some g =>
          (back x (fun q => { q with granted := some (BitVec.ofNat 12 g) })).updAllocator cluster tenancy
            (fun a => a.promise g x.launch))

/-! ## Folds and discards (R68) -/

/-- Overlays of a tag that a loom still holds. -/
def LoomRun.overlaysOf (r : LoomRun) (tag : Nat) : List Overlay := r.overlays.filter (fun o => o.tag = tag)
/-- Discard overlays of a tag, of one segment or of all. -/
def LoomRun.discard (r : LoomRun) (tag : Nat) (seg : Option Nat) : LoomRun :=
  { r with overlays := r.overlays.filter (fun o => o.tag ≠ tag || (match seg with
      | some g => o.seg ≠ g
      | none => false)) }
/-- The overlays of a tag that a segment has: one whose granule stands, and whose first write has not come, is none yet (R63, R257). -/
def LoomRun.folds (r : LoomRun) (seg tag : Nat) : List Overlay := (r.overlaysOf tag).filter (fun o => o.seg = seg && !o.fresh)
/-- Write an overlay into its base line, in one write of the whole line. -/
def LoomRun.foldLine (r : LoomRun) (seg tag line : Nat) : LoomRun :=
  match r.overlay seg tag line with
  | some o => (r.setCells seg 0 (64 * line) (o.data.readBytes 0 64)).setPoison seg 0 line o.poisoned
  | none => r
/-- Change what a tfold has in progress on a loom. -/
def State.setFolding (s : State) (l t tag : Nat) (f : Option Folding) : State :=
  s.updAllocator (clusterOf l) t (fun a => { a with ops := a.ops.map (fun o =>
    if o.tag = tag then { o with folding := match f with
      | some x => Tab.put o.folding l x
      | none => Tab.drop o.folding l } else o) })
/-- The next line of a fold is written; after the last, what it pinned is let go, and the segment's overlays of the tag are discarded. -/
def State.foldNext (s : State) (l t : Nat) (o : TagOp) (f : Folding) : State :=
  match f.left with
  | k :: rest =>
    ((s.spindleReads l o.launch t [(f.seg, o.tag, k)]).updLoom l (fun x => x.updRun o.launch (fun r => r.foldLine f.seg o.tag k))).setFolding
      l t o.tag (some { f with left := rest })
  | [] =>
    let s1 := s.updLoom l (fun x => (x.pins o.launch f.needs false).updRun o.launch (fun r => r.discard o.tag (some f.seg)))
    (s1.setFolding l t o.tag none).spindle l
/-- One loom's share of a tfold: its lowest segment with overlays of the tag, one line a cycle once the Spindle grants it: R68 gives the
writes of a fold no times (DESIGN CHOICE, log 86). -/
def State.foldOn (s : State) (l t : Nat) (o : TagOp) : State :=
  match (s.loom l).run o.launch, Tab.find? o.folding l with
  | none, _ => s
  | some _, some f => s.foldNext l t o f
  | some r, none =>
    match r.overlaysOf o.tag with
    | [] => s
    | v :: _ =>
      let lines := r.folds v.seg o.tag
      if lines = [] then
        (s.updLoom l (fun x => x.updRun o.launch (fun r => r.discard o.tag (some v.seg)))).spindle l
      else
      let needs := Need.segment v.seg true :: lines.map (fun x => Need.overlay x.seg o.tag x.line false)
      let w := s.request o.loom o.seq o.launch o.stamp [(l, needs)]
      if w.1 then
        ((w.2.unwait l o.loom o.seq o.stamp).updLoom l (fun x => x.pins o.launch needs true)).foldNext l t o
          { seg := v.seg, needs := needs, left := lines.map (·.line) }
      else w.2
/-- TAG_FREED: every loom of the cluster folds or discards; when none holds an overlay of the tag any more, the tag is free
and the sequencer that waits on it comes back. Until then the operation goes on. -/
def execTagFreed (cluster tenancy : Nat) (tag : BitVec 12) (s : State) : Host.Outcome State Fault Refusal :=
  if 80 ≤ cluster || 64 ≤ tenancy then .fault .noSuchAgent
  else .next (match (s.allocator cluster tenancy).ops.find? (fun o => o.tag = tag.toNat) with
    | none => s
    | some o =>
      let s0 := s.performEarlier o.loom 5
      let s1 := if o.fold then (loomsOf cluster).foldl (fun s l => s.foldOn l tenancy o) s0
        else (loomsOf cluster).foldl (fun s l =>
          match (s.loom l).run o.launch with
          | some _ => (s.updLoom l (fun x => x.updRun o.launch (fun r => r.discard o.tag none))).spindle l
          | none => s) s0
      let left := (loomsOf cluster).any (fun l =>
        match (s1.loom l).run o.launch with
        | some r => r.overlaysOf o.tag ≠ []
        | none => false)
      if left then
        s1.updAllocator cluster tenancy (fun a => { a with ops := a.ops.map (fun x =>
          if x.tag = o.tag then { x with endsAt := s.cycle + 1 } else x) })
      else
        let s2 := s1.updAllocator cluster tenancy (fun a => { a with ops := a.ops.filter (fun x => x.tag ≠ o.tag) })
        s2.updLoom o.loom (fun l => l.updSeqOf o.seq o.launch (fun q =>
          match q.status with
          | .waiting (.tagOp x) => if x = o.tag then q.wake s.cycle else q
          | _ => q)))

end Sys2Proof.Machine
end

