-- ==== Sys2Proof/Machine/Launch.lean ====
section
/-!
DEFINITION. The stream sequencer's slots launch, waitw and signal, and a launch from the reading of its block to its end
(R147, R166, R279 to R283, R335 to R338, R390, R392, R394, R403).
-/

namespace Sys2Proof.Machine

/-! ## The launch block (Table 16.2) -/

/-- A little-endian field. -/
def field (bs : List Byte) (off n : Nat) : Nat := leNat ((bs.drop off).take n)
def blockImage (b : List Byte) : Nat := field b 0 8
def blockPlace (b : List Byte) : Nat := field b 8 2
def blockCopies (b : List Byte) : Nat := field b 10 2
def blockFlags (b : List Byte) : Nat := field b 12 4
def blockArgs (b : List Byte) : DWord := BitVec.ofNat 64 (field b 16 8)
def blockCopyAt (b : List Byte) : DWord := BitVec.ofNat 64 (field b 24 8)
/-- Does CHK match? -/
def blockMatches (b : List Byte) : Bool := crc32c (b.take 60) == BitVec.ofNat 32 (field b 60 4)
/-- The block's own fields (R337). -/
def blockBad (b : List Byte) : Bool :=
  1 < blockFlags b || (b.drop 40).take 20 ≠ List.replicate 20 0#8 || 255 < blockCopies b

/-! ## The slots (R166, R280, R281) -/

/-- The loom number under which a stream sequencer's port and far writes stand. -/
def streamPort (t : Nat) : Nat := 1280 + t
/-- The word at a far descriptor, as a tenancy's stream sequencer reads it: its own signals that still wait stand in it. -/
def State.streamBytes (s : State) (t : Nat) (d : DWord) (n : Nat) : List Byte :=
  let e := s.window t (farWindow d)
  let ahead := (s.tenancy t).signals.filter (fun x => x.2.kind = winKind e && x.2.peer = winPeer e)
  (ahead.foldl (fun s x => s.performFar x.2) s).farSeen (stackOf (streamPort t)) (winKind e) (winPeer e) (s.keyOf e)
    (winTarget e (farOffset d)) n
/-- What a stream sequencer's read of n bytes at a far descriptor meets: its target's answer, then the check of its lines (R90, R370,
R371). -/
def State.streamRead (s : State) (t : Nat) (d : DWord) (n : Nat) : Option Nat × State :=
  let e := s.window t (farWindow d)
  let a := winTarget e (farOffset d)
  match s.farAnswer (winKind e) a false with
  | (some code, s1) => (some code, s1)
  | (none, s1) => s1.checkFar (stackOf (streamPort t)) (winKind e) (winPeer e) (s.keyOf e) (linesOf a n)
/-- LAUNCH: checks the block's descriptor, and begins the reading of the block; the next pick does not wait. -/
def execLaunch (a b : BitVec 6) (s : State) : Host.Outcome State Fault Refusal :=
  let d := s.rS a
  let t := s.myTenancy
  .next (match s.windowFault t d 64 1 false with
    | some code => s.stopSlot code 0 (farOperand d)
    | none =>
      let (e, s1) := s.endOf .blockRead
      let x : Launch :=
        { tenancy := t, image := 0, place := 0, token := ((s.rS b).extractLsb' 0 3).toNat, block := d, blockBytes := [],
          args := [], pick := BitVec.ofNat 64 s.cur.pick, step := s.cur.step, phase := .reading 1 e, looms := [],
          accepted := none, stalled := [], faulted := false }
      { s1 with launches := Tab.put s1.launches s1.nextLaunch x, nextLaunch := s1.nextLaunch + 1 })
/-- WAITW: the word returns at the next step when it differs from s[B]; else the sequencer leaves the ready set. DESIGN CHOICE (log 59):
the manual says of lfd, of sfd, of an engine and of a fetch what a target out of reach brings (R377, Table 28.1), and nothing of waitw,
whose read here meets it, and a bad line, as an lfd does: a landing stop where its word would land. -/
def execWaitw (a b : BitVec 6) (s : State) : Host.Outcome State Fault Refusal :=
  let d := s.rS a
  .next (match s.windowFault s.myTenancy d 8 1 false with
    | some code => s.stopSlot code 0 (farOperand d)
    | none =>
      match s.streamRead s.myTenancy d 8 with
      | (some code, s1) => s1.resultFailed (.s b.toNat) 1 { code := code, operand := farOperand d }
      | (none, s1) =>
        let w := BitVec.ofNat 64 (leNat (s.streamBytes s.myTenancy d 8))
        if w ≠ s.rS b then s1.resultS b.toNat 1 w else s1.thenWait (.watch d (s.rS b) b.toNat))
/-- Have launches of a tenancy before a number still to read their blocks, arguments or copy control blocks? -/
def State.readsAhead (s : State) (t before : Nat) : Bool :=
  s.launches.any (fun p => p.1 < before && p.2.tenancy = t && match p.2.phase with
    | .reading _ _ | .backingOff _ _ | .copying _ _ => true
    | _ => false)
/-- The words of a tenancy's signals go out in order, once every read before them has performed (R166): each after a release at sys
scope. -/
def State.sendSignals (s : State) (t : Nat) : State :=
  let q := (s.tenancy t).signals
  let go := q.takeWhile (fun x => !s.readsAhead t x.1)
  if go = [] then s
  else
    go.foldl (fun s x => ((List.range 5).foldl (fun s k => s.drainFar k) s).sendFar x.2)
      (s.updTenancy t (fun x => { x with signals := q.drop go.length }))
/-- SIGNAL: a release at sys scope, then the write, which to the host carries Relaxed Ordering clear. -/
def execSignal (a b : BitVec 6) (s : State) : Host.Outcome State Fault Refusal :=
  let d := s.rS a
  .next (match s.windowFault s.myTenancy d 8 1 true with
    | some code => s.stopSlot code 0 (farOperand d)
    | none =>
      let w := s.farWrite d (leBytes 8 (s.rS b).toNat) false
      (s.updTenancy s.myTenancy (fun x => { x with signals := x.signals ++ [(s.nextLaunch, w)] })).sendSignals s.myTenancy)
/-- WATCHED_WORD_CHANGE: the word that waitw watches differs, and it lands at the step after the waitw; or the read of it meets an error,
which lands in its place. -/
def execWatchedWordChange (tenancy : Nat) (s : State) : Host.Outcome State Fault Refusal :=
  if 64 ≤ tenancy then .fault .noSuchAgent
  else .next (match (s.tenancy tenancy).stream.status with
    | .waiting (.watch d v dest) =>
      let w := BitVec.ofNat 64 (leNat (s.streamBytes tenancy d 8))
      match s.streamRead tenancy d 8 with
      | (some code, s1) => s1.updTenancy tenancy (fun x => { x with
          stream := x.stream.comesBack dest s.cycle 0#1024 (.failed { code := code, operand := farOperand d }) })
      | (none, s1) =>
        if w = v then s
        else s1.updTenancy tenancy (fun x => { x with stream := x.stream.returned dest s.cycle w })
    | _ => s)

/-! ## Failures and refusals (Table 28.1, R335) -/

/-- Change a launch. -/
def State.updLaunch (s : State) (id : Nat) (f : Launch → Launch) : State :=
  match Tab.find? s.launches id with
  | some x => { s with launches := Tab.put s.launches id (f x) }
  | none => s
/-- A launch fails after its pick has issued: the stream sequencer stops before its next pick, and the token is not set. A
stream that has halted stays idle. -/
def State.failLaunch (s : State) (id : Nat) (x : Launch) (code : Nat) (operand : DWord) : State :=
  let s1 := (s.updLaunch id (fun x => { x with phase := .ended })).recordAt 0x7FF x.tenancy 14 13 3 0 code 0#14
    x.pick.toNat x.step operand none
  s1.updTenancy x.tenancy (fun t =>
    if t.streamState = 0 then t else { t with streamState := 3, streamCode := code, failedLaunch := some id })
/-- The launch is over for its stream: the token is set, and no rank of it waits any more. -/
def State.closeLaunch (s : State) (id : Nat) (x : Launch) : State :=
  ((s.updLaunch id (fun x => { x with phase := .ended })).updTenancy x.tenancy (fun t =>
    { t with stoppedRanks := t.stoppedRanks.filter (fun k => k.2 ≠ id) })).setStreamToken x.tenancy x.token
/-- A refused launch starts nothing. -/
def State.refuseLaunch (s : State) (id : Nat) (x : Launch) (code : Nat) : State :=
  (s.recordAt 0x7FF x.tenancy 14 15 3 3 code 0#14 x.pick.toNat x.step (operandOf 0 0 (farOffset x.block)) none).closeLaunch
    id x
/-- The code of a completion's status (R371, R377). -/
def statusCode (status : FarStatus) : Option Nat :=
  match status with
  | .ok => none
  | .poisoned => some 0x910
  | .uncorrectable => some 0x903
  | .mismatch => some 0x904
  | .hostPoisoned => some 0x905
  | .targetError => some 0x407
/-- What a device read of a window for a launch meets: its window's check, a target out of reach, what its completion reports, and the
check of its lines (R90, R370, R371, R390). -/
def State.launchRead (s : State) (t : Nat) (d : DWord) (n : Nat) (status : FarStatus) : Option Nat × State :=
  let e := s.window t (farWindow d)
  let a := winTarget e (farOffset d)
  match s.windowFault t d n 1 false with
  | some c => (some c, s)
  | none =>
    if s.unreachable (winKind e) a then (some 0x407, s)
    else
      match statusCode status with
      | some c =>
        (some c, if status = .uncorrectable || status = .mismatch then s.setFarPoison (winKind e) (winPeer e) (a / 64) true else s)
      | none => s.checkFar (stackOf (streamPort t)) (winKind e) (winPeer e) (s.keyOf e) (linesOf a n)
/-- The arguments that ARGBUF gives: 64 bytes for each sequencer record. -/
def State.readArgs (s : State) (t : Nat) (img : Image) (b : List Byte) : List (List DWord) :=
  let bs := s.streamBytes t (blockArgs b) (64 * img.seqs.length)
  (List.range img.seqs.length).map (fun i =>
    (List.range 8).map (fun j => BitVec.ofNat 64 (field bs (64 * i + 8 * j) 8)))
/-- The copies begin. -/
def State.beginCopies (s : State) (id : Nat) (next : Nat) : State :=
  let (e, s1) := s.endOf .copies
  s1.updLaunch id (fun x => { x with phase := .copying next e })
/-- The block's CHK matches: its fields are checked, and then ARGBUF is read. -/
def State.blockRead (s : State) (id : Nat) (x : Launch) (b : List Byte) : State :=
  let t := x.tenancy
  let s1 := s.updLaunch id (fun x => { x with blockBytes := b, image := blockImage b, place := blockPlace b })
  if blockBad b then s1.refuseLaunch id x 0xA2A
  else if blockFlags b = 1 then
    match Tab.find? (s.tenancy t).images (blockImage b) with
    | none => s1.beginCopies id 0
    | some img =>
      match s1.launchRead t (blockArgs b) (64 * img.seqs.length) .ok with
      | (some c, s1) => s1.failLaunch id x c (farOperand (blockArgs b))
      | (none, s1) => (s1.updLaunch id (fun x => { x with args := s.readArgs t img b })).beginCopies id 0
  else s1.beginCopies id 0
/-- LAUNCH_BLOCK_READ_DONE: CHK and the fields are verified. After a mismatch the block is read again, nine times in all. -/
def execLaunchBlockReadDone (launch : Nat) (status : FarStatus) (s : State) : Host.Outcome State Fault Refusal :=
  .next (match Tab.find? s.launches launch with
    | none => s
    | some x =>
      match x.phase with
      | .reading nth _ =>
        (match s.launchRead x.tenancy x.block 64 status with
        | (some c, s) => s.failLaunch launch x c (farOperand x.block)
        | (none, s) =>
          let b := s.streamBytes x.tenancy x.block 64
          if blockMatches b then s.blockRead launch x b
          else if 9 ≤ nth then s.failLaunch launch x 0xA01 0#64
          else s.updLaunch launch (fun x => { x with
            phase := .backingOff nth (s.cycle + 256 * 2 ^ (nth - 1)) })).sendSignals x.tenancy
      | _ => s)
/-- LAUNCH_BLOCK_REFETCH: the wait after a mismatch is over. -/
def execLaunchBlockRefetch (launch : Nat) (s : State) : Host.Outcome State Fault Refusal :=
  .next (match Tab.find? s.launches launch with
    | none => s
    | some x =>
      match x.phase with
      | .backingOff nth u =>
        if u ≤ s.cycle then
          let (e, s1) := s.endOf .blockRead
          s1.updLaunch launch (fun x => { x with phase := .reading (nth + 1) e })
        else s
      | _ => s)

/-! ## Copies (R280) -/

/-- A copy of a control block, as an sh copy of the stream. -/
def State.copyCommand (s : State) (x : Launch) (rd rs rn : DWord) : Cmd :=
  let eng : EngLent := { wm := 0#8, aq := true, rl := false }
  { s.newCmd .copy [rd, rs, rn, 0#64] none eng 3 with pick := x.pick.toNat, step := x.step, lane := 13, launch := 0, seq := 0 }
/-- Beats of a copy, one after another, until one fails. -/
def State.copyBeats (s : State) (t : Nat) (c : Cmd) (bs : List BeatAt) : Option ChunkFault × State :=
  match bs with
  | [] => (none, s)
  | b :: rest =>
    let rs := c.beatReach (streamPort t) b
    match s.firstFault (streamPort t) 0 t rs with
    | some f => (some f, s)
    | none =>
      match s.reachReads (streamPort t) 0 t true rs with
      | (some f, s1) => (some f, s1)
      | (none, s1) => State.copyBeats (s1.moveBeats (streamPort t) c [b]) t c rest
/-- Perform one copy control block: 32 bytes at COPYBUF. Its far writes perform before it completes. DESIGN CHOICE (log 63): its last 8
bytes are to be zero, and no rule gives an answer to others; they are ignored. -/
def State.performCopy (s : State) (x : Launch) (next : Nat) (status : FarStatus) : Option (Nat × DWord) × State :=
  let t := x.tenancy
  let d := farAt (blockCopyAt x.blockBytes) (32 * next)
  match s.launchRead t d 32 status with
  | (some c, s) => (some (c, farOperand d), s)
  | (none, s) =>
    let bs := s.streamBytes t d 32
    let reg := fun (k : Nat) => BitVec.ofNat 64 (field bs (8 * k) 8)
    let c := s.copyCommand x (reg 0) (reg 1) (reg 2)
    let beats := shapeRows (reg 2) * ((shapeBytes (reg 2) + 31) / 32)
    if !isFar (reg 0) then (some (0x401, 0#64), s)
    else if !isFar (reg 1) then (some (0x401, 0#64), s)
    else
      match s.copyBeats t c (beatsFrom (shapeRows (reg 2)) (shapeBytes (reg 2)) beats (shapeRows (reg 2) * shapeBytes (reg 2))
          0 0 true) with
      | (some f, s1) => (some (f.1, f.2.2), s1.drainFar (stackOf (streamPort t)))
      | (none, s1) => (none, s1.drainFar (stackOf (streamPort t)))

/-! ## Refusals (Table 23.7) -/

/-- Unit numbers of a loom and of its remap table in the boot record. -/
def unitLoom (l : Nat) : Nat := 11 + l
def unitRemap (l : Nat) : Nat := 1291 + l
/-- Is a loom out of service (R403)? -/
def State.outOfService (s : State) (l : Nat) : Bool :=
  (s.loom l).offline || s.boot.out.contains (unitLoom l) || s.boot.out.contains (unitRemap l)
/-- Is a sequencer record refused (0xA22)? -/
def SeqRec.bad (r : SeqRec) (pickBytes : Nat) : Bool :=
  3 < r.prio || (r.alloc ≠ 24 && r.alloc ≠ 48 && r.alloc ≠ 96) || 8 < r.argc ||
  (match r.entry with
    | some e => e % 16 ≠ 0 || pickBytes ≤ e
    | none => false) ||
  r.banks.extractLsb' 20 12 ≠ 0#12 || r.reopen &&& ~~~r.banks ≠ 0#32
/-- Allotments of a loomset. -/
def Image.allotments (img : Image) (i : Nat) : Nat := (img.seqsOf i).foldl (fun n r => n + r.alloc) 0
/-- Is CHUNK outside Table 3.3, or BAND above 2? -/
def Image.badChunk (img : Image) : Bool :=
  let b := chunkBytes img.chunk
  let c := chunkCycles img.chunk
  b < 32 || 4096 < b || b % 32 ≠ 0 || c < 1 || 4096 < c || img.chunk.extractLsb' 13 3 ≠ 0#3 ||
  img.chunk.extractLsb' 29 35 ≠ 0#35 || 2 < img.band
/-- Is a loomset's budget refused (0xA24)? -/
def Image.badBudget (img : Image) (i : Nat) (r : LoomsetRec) : Bool :=
  r.budget < 3 || 65536 < r.budget || r.budget < img.largestPick i || r.budget < r.footprint ||
  (img.segsOf i).any (fun g => r.budget < g.granules)
/-- The start state of a sequencer record (R20, R161). -/
def SeqRec.start (r : SeqRec) (id : Nat) : Seq :=
  { Seq.reset with
    launch := id, prio := BitVec.ofNat 2 r.prio, alloc := r.alloc, banks := r.banks.extractLsb' 0 20
    reopen := r.reopen.extractLsb' 0 20 }
/-- A segment at launch: pushed where it has contents, which then lie in its spill slot, else unborn (R44). -/
def SegDecl.born (g : SegDecl) : Segment :=
  { size := g.size, tagged := g.tagged, shared := g.shared, readonly := g.readonly, zeroed := g.zeroed
    state := if g.init.isSome then .pushed else .unborn, home := 0, ref := false, pins := 0, data := []
    poison := [] }
/-- The largest of the bounds of a loomset's sequencers (R140), none where one that the launch starts has none. -/
def Image.boundOf (img : Image) (i : Nat) (f : SeqRec → Option Nat) : Option Nat :=
  let own := img.seqsOf i
  if own.any (fun r => r.entry.isSome && ((f r).filter (· ≠ 0xFFFFFFFF)).isNone) then none
  else some ((own.filterMap f).foldl max 0)
/-- A launch as one of its looms holds it at its start. -/
def State.newRun (s : State) (id l : Nat) (x : Launch) (img : Image) (i rank : Nat) (r : LoomsetRec) : LoomRun :=
  { tenancy := x.tenancy
    segs := (img.segsOf i).foldl (fun t g => Tab.put t g.seg g.born) []
    overlays := [], handSeg := 0, handOverlay := none, budget := r.budget, bindings := [], observed := [], rebound := []
    jacquard := none, picks := img.picks, pickBytes := img.pickBytes, uses := r.uses, rank := rank, loomset := i
    spillShare := r.spillShare, spillBase := (s.loom l).spillBase r.spillShare, pmax := img.boundOf i (·.pmax)
    nodeBound := img.boundOf i (·.nodeBound), spillWindow := r.spillWindow, windowBytes := s.region x.tenancy r, chunk := img.chunk
    band := img.band, quota := r.quota
    records := (img.seqsOf i).foldl (fun t q => Tab.put t q.seq (q.start id)) []
    firstStep := none, lateWindows := [], bandReported := false, stallReported := x.stalled.contains l
    placed := s.cycle, suspended := false }
/-- Launches that have been accepted in this cycle as the next one is checked against them: as if they had already been placed (R336). -/
def State.withAccepted (s : State) : State :=
  (s.launches.filter (fun p => p.2.phase = .waiting && p.2.accepted = some s.cycle)).foldl (fun s p =>
    let part := (s.tenancy p.2.tenancy).partition
    match Tab.find? (s.tenancy p.2.tenancy).images p.2.image with
    | none => s
    | some img =>
      let s0 := s.loadWindows p.2.tenancy img
      (img.looms part p.2.place).foldl (fun s w => match img.loomsets[w.2.1]? with
        | none => s
        | some r => s.updLoom w.1 (fun l =>
            { l with runs := Tab.put l.runs p.1 (s0.newRun p.1 w.1 p.2 img w.2.1 w.2.2 (s0.withShare part p.2.place r)) })) s) s
/-- Do the segments of a loomset not fit the spill space that the runtime can give it now (0xA25)? -/
def State.badSpill (s : State) (x : Launch) (img : Image) (i : Nat) (r : LoomsetRec) : Bool :=
  (s.withShare (s.tenancy x.tenancy).partition x.place r).spillShare + s.region x.tenancy r <
    (img.segsOf i).foldl (fun n g => n + g.size) 0
/-- The quota that a launch brings into a cluster. -/
def Image.quotaIn (img : Image) (partition : List Nat) (place c : Nat) : Nat :=
  (img.loomsets.filter (fun r => (r.looms partition place).any (fun l => clusterOf l = c))).foldl (fun n r => max n r.quota) 0
/-- Tags that the launches of a tenancy in a cluster may hold, those that have been accepted and still wait included (R65, R336). -/
def State.quotas (s : State) (t c : Nat) : Nat :=
  let runs := (loomsOf c).flatMap (fun l =>
    ((s.loom l).runs.filter (fun p => p.2.tenancy = t)).map (fun p => (p.1, p.2.quota)))
  let ids := (runs.map (·.1)).eraseDups
  let placed := ids.foldl (fun n id => n + ((runs.filter (fun p => p.1 = id)).map (·.2)).foldl max 0) 0
  (s.launches.filter (fun p => p.2.tenancy = t && p.2.phase = .waiting)).foldl (fun n p =>
    n + (Tab.find? (s.tenancy t).images p.2.image).elim 0 (fun img =>
      img.quotaIn (s.tenancy t).partition p.2.place c)) placed
/-- Has a sequencer no bound on its way to a switch point (0xA27)? -/
def SeqRec.unbounded (r : SeqRec) : Bool :=
  r.entry.isSome && match r.pmax with
    | none => true
    | some p => p = 0xFFFFFFFF && r.nodeBound.isNone
/-- Has another tenancy a nonzero weight on a loom? -/
def Loom.sharedWith (l : Loom) (t : Nat) : Bool := (List.range 64).any (fun u => u ≠ t && 0 < l.weight u)
/-- The first reason of Table 23.7 that holds. -/
def State.launchRefusal (s : State) (x : Launch) : Option Nat :=
  let t := x.tenancy
  let part := (s.tenancy t).partition
  match Tab.find? (s.tenancy t).images x.image with
  | none => some 0xA20
  | some img =>
    let s := s.loadWindows t img
    let all := img.looms part x.place
    let sets := img.loomsets.zipIdx
    firstCode
      [(part = [] || img.loomsets.any (fun r => (r.places x.place).any (fun k => part.length ≤ k)), 0xA21),
       (all.any (fun p => s.outOfService p.1), 0xA29),
       (all.any (fun p => (s.loom p.1).weight t = 0), 0xA2B),
       (img.seqs.any (fun r => r.bad img.pickBytes) || sets.any (fun p => 384 < img.allotments p.2), 0xA22),
       (img.badChunk, 0xA23),
       (sets.any (fun p => img.badBudget p.2 p.1), 0xA24),
       (sets.any (fun p => s.withAccepted.badSpill x img p.2 p.1), 0xA25),
       ((all.map (fun p => clusterOf p.1)).eraseDups.any (fun c =>
          4095 < s.quotas t c + img.quotaIn part x.place c), 0xA26),
       (all.any (fun p => (s.loom p.1).sharedWith t && (img.seqsOf p.2.1).any SeqRec.unbounded), 0xA27),
       (img.relocs.any (fun r => r.bad (s.tenancy t).windows (img.siteLooms part x.place r)), 0xA28)]
/-- LAUNCH_COPIES_DONE: one copy control block has completed; after the last, the launch is checked, and waits for its
looms. A copy acquires (R272, R280): while words of earlier signals of the stream have still to go out, it waits for them. -/
def execLaunchCopiesDone (launch : Nat) (status : FarStatus) (s : State) : Host.Outcome State Fault Refusal :=
  .next (match Tab.find? s.launches launch with
    | none => s
    | some x =>
      match x.phase with
      | .copying next _ =>
        let check := fun (s : State) =>
          match s.launchRefusal x with
          | some code => s.refuseLaunch launch x code
          | none => s.updLaunch launch (fun x => { x with phase := .waiting, accepted := some s.cycle })
        if blockCopies x.blockBytes ≤ next then (check s).sendSignals x.tenancy
        else if (s.tenancy x.tenancy).signals.any (fun w => w.1 ≤ launch) then
          s.updLaunch launch (fun x => { x with phase := .copying next (s.cycle + 1) })
        else
          (match s.performCopy x next status with
          | (some (c, o), s1) => s1.failLaunch launch x c o
          | (none, s1) => if blockCopies x.blockBytes ≤ next + 1 then check s1 else s1.beginCopies launch (next + 1)).sendSignals
            x.tenancy
      | _ => s)

/-! ## Starting (R17, R18, R44, R147, R283) -/

/-- The sequencers of a loomset at the launch's start: those with an ENTRY are active (R17). -/
def State.startSeqs (s : State) (id : Nat) (x : Launch) (img : Image) (i : Nat) : Tab Seq :=
  (img.seqs.zipIdx.filter (fun p => p.1.loomset = i)).foldl (fun (t : Tab Seq) (p : SeqRec × Nat) =>
    let r := p.1
    let args := (if blockFlags x.blockBytes = 1 then x.args.getD p.2 [] else r.args).take r.argc
    Tab.put t r.seq (match r.entry with
      | some e => Seq.activated id (BitVec.ofNat 64 e) args (r.start id) s.cycle
      | none => r.start id)) []
/-- May a launch run on a loom together with its tenancy's launches there, and do its banks belong to no other (R75, R283)? -/
def Loom.accepts (l : Loom) (cycle id : Nat) (x : Launch) (img : Image) (i : Nat) (r : LoomsetRec) : Bool :=
  let own := img.seqsOf i
  let others := l.runs.filter (fun p => p.1 ≠ id)
  let mine := others.filter (fun p => p.2.tenancy = x.tenancy)
  l.usable cycle && l.switching.isNone &&
  others.all (fun p => p.2.ownBanks.all (fun b => !own.any (fun q => q.banks.getLsbD b))) &&
  mine.all (fun p => own.all (fun q => (Tab.find? p.2.records q.seq).isNone) && p.2.uses &&& r.uses = 0#16) &&
  img.allotments i + mine.foldl (fun n p => n + p.2.records.foldl (fun n q => n + q.2.alloc) 0) 0 ≤ 384 &&
  r.budget + mine.foldl (fun n p => n + p.2.budget) 0 ≤ 65536
/-- Is a chunk of a launch of another tenancy, which has ended, still in progress on a loom of the cluster: what it writes is to be
scrubbed before a tenancy's launch is placed (R383)? -/
def State.strangersEnd (s : State) (l t : Nat) : Bool :=
  (loomsOf (clusterOf l)).any (fun o => (s.loom o).runs.any (fun p =>
    p.2.tenancy ≠ t && (Tab.find? s.launches p.1).any (fun x => x.phase ≠ .running)))
/-- May a waiting launch of an image be placed (R75, R283, R383)? DESIGN CHOICE (log 44): one whose segments no longer fit, since
launches placed after its acceptance hold the spill space, waits for them. -/
def State.placeable (s : State) (id : Nat) (x : Launch) (img : Image) : Bool :=
  img.loomsets.zipIdx.all (fun p => !(s.loadWindows x.tenancy img).badSpill x img p.2 p.1) &&
  (img.looms (s.tenancy x.tenancy).partition x.place).all (fun p =>
    !s.strangersEnd p.1 x.tenancy && (img.loomsets[p.2.1]?).any (fun r => (s.loom p.1).accepts s.cycle id x img p.2.1 r))
/-- Both scale entries of every tile hold the constant exponent 0 (R18). -/
def unitScales : Tab (BitVec 9) := (List.range 16).map (fun k => (k, 0#9))
/-- What a launch finds in the loom-level state that it claims (R18). -/
def Loom.claim (l : Loom) (uses : BitVec 16) : Loom :=
  let l1 := if uses.getLsbD 0 then
      { l with acc := [], scaleA := [], scaleB := [], scaleConst := unitScales, scaleZ := 0#8, scaleLoads := [] }
    else l
  if uses.getLsbD 1 then { l1 with cq := [] } else l1
def Saved.claim (v : Saved) (uses : BitVec 16) : Saved :=
  let v1 := if uses.getLsbD 0 then
      { v with acc := [], scaleA := [], scaleB := [], scaleConst := unitScales, scaleZ := 0#8, scaleLoads := [] }
    else v
  if uses.getLsbD 1 then { v1 with cq := [] } else v1
/-- Nothing saved. -/
def Saved.empty : Saved :=
  { seqs := [], acc := [], scaleA := [], scaleB := [], scaleConst := [], scaleZ := 0#8, scaleLoads := [], cq := [],
    queues := Queues.empty }
/-- Put a launch on a loom, scrubbed for it: it begins at once where its tenancy holds the loom or nobody does, and else waits switched
out. -/
def Loom.take (l : Loom) (id t cycle draw : Nat) (run : LoomRun) (seqs : Tab Seq) : Loom :=
  let own := run.ownBanks
  let l := l.scrubFor t draw own
  let l0 := { l with
    banks := l.banks.filter (fun p => !own.contains p.1), refresh := l.refresh.filter (fun p => !own.contains (p.1 / 8)) }
  let begins := l.holder = some t || (l.holder = none && 0 < l.weight t)
  if begins then
    let l1 := { l0 with
      runs := Tab.put l0.runs id run, seqs := seqs.foldl (fun (m : Tab Seq) (p : Nat × Seq) => Tab.put m p.1 p.2) l0.seqs }
    let l2 := l1.claim run.uses
    if l.holder = none then
      ({ l2 with trace := if l2.lastHolder = t then l2.trace else [] } : Loom).beginQuantum t cycle
    else l2
  else
    let v := (Tab.get l0.saved t Saved.empty).claim run.uses
    { l0 with
      runs := Tab.put l0.runs id { run with suspended := true }
      saved := Tab.put l0.saved t { v with seqs := seqs.foldl (fun (m : Tab Seq) (p : Nat × Seq) => Tab.put m p.1 p.2) v.seqs } }
/-- A launch's spill space on a loom: zero (R45), and then the contents of its segments in their slots (R44, R147). -/
def State.fillSpill (s : State) (l : Nat) (r : LoomRun) (segs : List SegDecl) : State :=
  let lo := 28 * 2097152 + r.spillBase
  let inShare := fun (a : Nat) => lo ≤ a && a < lo + r.spillShare
  let s1 := s.updLoom l (fun x => { x with
    vault := x.vault.filter (fun c => !inShare c.1), vaultPoison := x.vaultPoison.filter (fun k => !inShare (64 * k)) })
  let window := (List.range (r.slotStart 4096 / 64)).drop (r.spillShare / 64)
  let s2 := window.foldl (fun s j => s.putSpill l r j (leBytes 64 0) false) s1
  segs.foldl (fun s g => match g.init with
    | some m => s.spillOut l r (r.segSlot g.seg) (g.size / 64) m []
    | none => s) s2
/-- The first time that a loom's temperature stands above the band that a launch has declared is reported (R375). -/
def State.reportBand (s : State) (l id : Nat) : State :=
  match (s.loom l).run id with
  | some r =>
    if r.bandReported then s
    else (s.updLoom l (fun x => x.updRun id (fun r => { r with bandReported := true }))).recordAt l r.tenancy 15 15 3 3 0x507
      0#14 0 0 0#64 (some id)
  | none => s
/-- A launch is put on one of its looms, which may be too hot for it from the start (R375). What other tenancies have left in the vaults
of the cluster, which it can reach, is scrubbed first (R383). -/
def State.place (s : State) (id l : Nat) (x : Launch) (img : Image) (i rank : Nat) (r : LoomsetRec) : State :=
  let run := s.newRun id l x img i rank r
  let clean := (loomsOf (clusterOf l)).foldl (fun s o =>
    if (s.loom o).unscrubbed.all (fun u => u.1 = x.tenancy) then s else s.updLoom o (fun y => y.scrubOthers x.tenancy)) s
  let s1 := ({ clean with free := s.free + 1 } : State).updLoom l (fun y =>
    y.take id x.tenancy s.cycle s.free run (s.startSeqs id x img i))
  let s1 := if img.band < (s.loom l).temperature then s1.reportBand l id else s1
  let s2 := s1.fillSpill l run (img.segsOf i)
  if (s2.loom l).weight x.tenancy = 0 && (s2.loom l).holder ≠ some x.tenancy then s2.reportStall l x.tenancy else s2
/-- LAUNCH_START: when every loom accepts the launch, its windows are loaded, its relocations applied, and its picks, segments and
sequencers placed there. -/
def execLaunchStart (launch : Nat) (s : State) : Host.Outcome State Fault Refusal :=
  .next (match Tab.find? s.launches launch with
    | none => s
    | some x =>
      match x.phase, Tab.find? (s.tenancy x.tenancy).images x.image with
      | .waiting, some img =>
        let all := img.looms (s.tenancy x.tenancy).partition x.place
        let rec_ := fun (i : Nat) => (img.loomsets[i]?).map (s.withShare (s.tenancy x.tenancy).partition x.place)
        if s.placeable launch x img then
          let s1 := (s.loadWindows x.tenancy img).updLaunch launch (fun x => { x with phase := .running, looms := all.map (·.1) })
          all.foldl (fun s p => match rec_ p.2.1 with
            | some r => s.place launch p.1 x img.relocated p.2.1 p.2.2 r
            | none => s) s1
        else s
      | _, _ => s)

/-! ## The end (R166, R281) -/

/-- Has a launch nothing left to do on a loom: every sequencer dormant, every command complete, no message waiting? -/
def Loom.finished (l : Loom) (id : Nat) : Bool :=
  l.seqsOf id = [] && l.queues.of id = [] && l.landing.all (fun m => m.launch ≠ id) &&
  l.arriving.all (fun a => a.launch ≠ id) &&
  l.saved.all (fun p => p.2.queues.of id = [])
/-- Is a launch over? -/
def State.launchOver (s : State) (id : Nat) (x : Launch) : Bool :=
  match x.phase with
  | .running => x.looms.all (fun l => (s.loom l).finished id)
  | .ending => x.looms.all (fun l => ((s.loom l).run id).isNone)
  | _ => false
/-- LAUNCH_COMPLETE: every write of the launch performs at dev scope (R281), its looms release it, and its token is set. -/
def execLaunchComplete (launch : Nat) (s : State) : Host.Outcome State Fault Refusal :=
  .next (match Tab.find? s.launches launch with
    | none => s
    | some x =>
      if s.launchOver launch x then
        let s1 := x.looms.foldl (fun s l => s.performEarlier l 3) s
        match x.phase with
        | .running => (s1.release launch x.tenancy).closeLaunch launch x
        | _ => s1.closeLaunch launch x
      else s)

/-! ## The stream's start, stop and resume (R275, R276, R391, R392) -/

/-- SSTAT: STATE and the fault code (Table 16.1). -/
def Tenancy.sstat (t : Tenancy) : DWord :=
  let waiting := match t.stream.status with
    | .waiting _ => true
    | _ => false
  BitVec.ofNat 64 (t.streamCode * 65536 + (if t.streamState = 1 && waiting then 2 else t.streamState))
/-- The start state of a stream sequencer. -/
def streamRecord : Seq := { Seq.reset with alloc := 96 }
/-- SPC_WRITE: while STATE is 0 it starts the stream sequencer, which may name every vector register (R330), with the window entries that
the runtime gives its program (R84; DESIGN CHOICE, log 44). The program counter is taken as it is written: no check of a byte offset
that is no multiple of 16 is given, and its picks are fetched from there (R110; DESIGN CHOICE, log 67). A device that has started
into recovery has no tenancy (R401). -/
def execSpcWrite (tenancy : Nat) (value : DWord) (s : State) : Host.Outcome State Fault Refusal :=
  if 64 ≤ tenancy then .fault .noSuchAgent
  else .next (if s.boot.recovery then s else s.updTenancy tenancy (fun t =>
    if t.streamState = 0 then
      { t with spc := value, streamState := 1, streamCode := 0, failedLaunch := none
               windows := putWindows (s.windowsLocked tenancy) t.windows t.streamWindows
               stream := Seq.activated 0 value [t.sarg] streamRecord (s.cycle + 1) }
    else { t with spc := value }))
/-- SHALT: a write of 1 stops the stream sequencer; STATE and the code become 0. -/
def execShalt (tenancy : Nat) (value : DWord) (s : State) : Host.Outcome State Fault Refusal :=
  if 64 ≤ tenancy then .fault .noSuchAgent
  else .next (s.updTenancy tenancy (fun t =>
    if value = 1#64 then
      { t with stream := t.stream.sleep, streamState := 0, streamCode := 0, failedLaunch := none }
    else t))
/-- A stream sequencer goes on. A pick that waits for tokens has not issued (R160): it is assessed afresh, since a launch
that failed meanwhile sets no token (R360, R392). -/
def Seq.resumeStream (q : Seq) (cycle : Nat) : Seq :=
  match q.status with
  | .waiting (.tokens _) => q.wake cycle
  | _ => q.resume cycle
/-- Resume a faulted stream sequencer, and perform the failed launch again first where that is asked. -/
def State.resumeStream (s : State) (t : Nat) (again : Bool) : State :=
  let x := s.tenancy t
  if x.streamState ≠ 3 then s
  else
    let s1 := match again, x.failedLaunch with
      | true, some id =>
        let (e, s1) := s.endOf .blockRead
        s1.updLaunch id (fun y => { y with phase := .reading 1 e, blockBytes := [], args := [] })
      | _, _ => s
    s1.updTenancy t (fun y => { y with
      streamState := 1, streamCode := 0, failedLaunch := none, stream := y.stream.resumeStream s.cycle })
/-- SRESUME: bit 0 resumes; bit 1 with it performs the failed launch again first. -/
def execSresume (tenancy : Nat) (value : DWord) (s : State) : Host.Outcome State Fault Refusal :=
  if 64 ≤ tenancy then .fault .noSuchAgent
  else .next (if value.getLsbD 0 then s.resumeStream tenancy (value.getLsbD 1) else s)
/-- SRESUME_RELAUNCH: the write of bits 0 and 1. -/
def execSresumeRelaunch (tenancy : Nat) (s : State) : Host.Outcome State Fault Refusal :=
  if 64 ≤ tenancy then .fault .noSuchAgent
  else .next (s.resumeStream tenancy true)

end Sys2Proof.Machine
end

