-- ==== Sys2Proof/Machine/Contain.lean ====
section
/-!
DEFINITION. What befalls one loom as a whole: containment and the loom reset (R322 to R324, R372), and the vault controller's
refresh deadlines and temperature bands (R78, R79, R373 to R375).
-/

namespace Sys2Proof.Machine

/-! ## Containment (R322, R323) -/

/-- Every sequencer of a loom that waits on an object of a contained loom returns with CODE 2, peer lost (Table 22.5). -/
def Loom.losePeer (l : Loom) (lost cycle : Nat) : Loom :=
  let back := fun (q : Seq) =>
    match q.status with
    | .waiting (.barrier r d _ _) =>
      if r.loom = lost then q.returned d cycle (barrierStatus (l.lastSeen q.launch r) 2#4) else q
    | _ => q
  { l with
    seqs := Tab.map l.seqs back, saved := Tab.map l.saved (fun v => { v with seqs := Tab.map v.seqs back })
    arriving := l.arriving.filter (fun a => a.object.loom ≠ lost) }
/-- An access that waited at a contained loom's shared banks: a vldr's data lands as zero, a vstr is discarded. -/
def State.loseAccess (s : State) (a : SharedAccess) : State :=
  let s1 := s.report a.fromLoom a.tenancy a.seq a.lane 0xB03 a.pick a.step (vaultOperand a.addr) (some a.launch)
  if a.write then s1
  else s1.updLoom a.fromLoom (fun l => l.updSeqOf a.seq a.launch (fun q => q.bring a.id 0#1024 .yes))
/-- A loom with nothing left on it: what it keeps is what no loom reset clears. -/
def Loom.cleared (l : Loom) : Loom :=
  { Loom.reset with
    resetCycle := l.resetCycle, remap1 := l.remap1, remap2 := l.remap2, temperature := l.temperature, weights := l.weights
    contained := l.contained, quarantined := l.quarantined, offline := l.offline, containments := l.containments
    counters := l.counters, counting := l.counting, debug := l.debug, compWrites := l.compWrites, lastHolder := l.holder.getD l.lastHolder, trace := l.trace
    traceCounts := l.traceCounts }
/-- What the chunks in progress on a loom were writing elsewhere is not defined, as its commands are dropped (R323). -/
def State.undefineAway (s : State) (l : Nat) : State :=
  let chunks := engines.flatMap (fun e => ((s.loom l).cmds e).filterMap (fun c => c.chunk.map (fun k => (c, s.allReach l e c k))))
  chunks.foldl (fun s p => s.undefine l p.1 (p.2.filter (fun r => match r with
    | .far _ _ _ => true
    | _ => r.owner l ≠ l))) s
/-- A loom is contained: it stops at once, every launch ends on it, its contents are lost, and its peers are released; what its
chunks had pinned on other looms is free. -/
def State.contain (s : State) (l : Nat) : State :=
  let x := s.loom l
  if x.contained then s
  else
    let s := s.undefineAway l
    let ts := (List.map (fun (p : Nat × LoomRun) => p.2.tenancy) x.runs).eraseDups
    let s0 := x.runs.foldl (fun s p => s.updLoom l (fun y => y.endRuns p.1)) s
    let s1 := ts.foldl (fun s t => s.recordAt l t 15 15 3 2 0xB01 0#14 0 0 0#64 none) s0
    let s2 := s1.updLoom l (fun x =>
      { x.cleared with contained := true, quarantined := true, containments := x.containments + 1 })
    let s3 := { s2 with allocators := Tab.map s2.allocators (fun a =>
      { a with stalled := a.stalled.filter (fun y => y.loom ≠ l) }) }
    let pinned := ((x.queues.matrix ++ x.queues.shuttle ++ x.queues.jacquard ++ x.queues.fill).flatMap (fun c =>
      ((c.chunk.map (·.pins)).getD []).map (fun p => (c.launch, p.1, p.2)))).filter (fun p => p.2.1 ≠ l)
    let free := pinned.foldl (fun s p => s.updLoom p.2.1 (fun y => y.pins p.1 p.2.2 false)) s3
    let s4 := (loomsOf (clusterOf l)).foldl (fun s o => s.updLoom o (fun y =>
      { (y.losePeer l s.cycle).dropWaiters (fun w => w.loom = l) with shared := y.shared.filter (fun a => a.fromLoom ≠ l) })) free
    let s5 := (x.shared.filter (fun a => a.fromLoom ≠ l)).foldl (fun s a => s.loseAccess a) s4
    (loomsOf (clusterOf l)).foldl (fun s o => s.spindle o) s5
/-- CONTAINMENT: an uncorrectable error in state that has no home. -/
def execContainment (loom : Nat) (s : State) : Host.Outcome State Fault Refusal :=
  if 1280 ≤ loom then .fault .noSuchAgent else .next (s.contain loom)

/-! ## The loom reset (R324, R372) -/

/-- LOOM_RESET: the management controller resets a quarantined loom; a loom that was contained twice stays as it is. -/
def execLoomReset (loom : Nat) (s : State) : Host.Outcome State Fault Refusal :=
  if 1280 ≤ loom then .fault .noSuchAgent
  else
    let l := s.loom loom
    .next (if !l.quarantined || 2 ≤ l.containments || l.resetEnds.isSome then s
      else
        let (n, s1) := s.drawTime .loomReset
        s1.updLoom loom (fun x =>
          { x.cleared with debug := [], trace := [], traceCounts := [], resetEnds := some (s.cycle + 1 + n % 1048576) }))
/-- The current copy of the boot record: the valid one of the higher generation (R401). -/
def Boot.currentIsA (b : Boot) : Bool :=
  b.copyA.valid && (!b.copyB.valid || b.copyB.generation.toNat ≤ b.copyA.generation.toNat)
def Boot.current (b : Boot) : BootCopy := if b.currentIsA then b.copyA else b.copyB
/-- Write entries to the copy that is not in force, with the next generation. A write that fails leaves no valid copy there. -/
def Boot.write (b : Boot) (entries : Tab Nat) (fails : Bool) : Boot :=
  let new : BootCopy := { generation := b.current.generation + 1#32, valid := !fails, entries := entries }
  if b.currentIsA then { b with copyB := new } else { b with copyA := new }
/-- The controller loads the remap table: a bad copy is written again from the other; without either the loom is offline. -/
def State.loadRemap (s : State) (l : Nat) : State :=
  let x := s.loom l
  if x.remap1 && x.remap2 then s
  else if x.remap1 || x.remap2 then (s.updLoom l (fun x => { x with remap1 := true, remap2 := true })).recordPhysical l 0x508 0#64
  else
    let off := (s.updLoom l (fun x => { x with offline := true })).recordPhysical l 0x509 0#64
    { off with boot := off.boot.write (Tab.put off.boot.current.entries (unitRemap l) 3) false }
/-- LOOM_RESET_COMPLETE: registers, queues, scratchpad and vault are zero, and the loom returns to service. -/
def execLoomResetComplete (loom : Nat) (s : State) : Host.Outcome State Fault Refusal :=
  if 1280 ≤ loom then .fault .noSuchAgent
  else .next (if (s.loom loom).resetEnds.isNone then s
    else
      (s.updLoom loom (fun x => { x with
        contained := false, quarantined := false, resetEnds := none, resetCycle := s.cycle + 1 })).loadRemap loom)

/-! ## Refresh (R78, R79, R373 to R375) -/

/-- The interval of a band in cycles (Table 5.4). -/
def bandInterval (band : Nat) : Nat := 67200000 / 2 ^ (min band 2)
/-- The launch, and the sequencer, that a scheduled bank is assigned to. -/
def Loom.bankOwner (l : Loom) (b : Nat) : Option (Nat × LoomRun × Nat) :=
  l.runs.findSome? (fun p =>
    (List.find? (fun (q : Nat × Seq) => q.2.banks.getLsbD b) p.2.records).map (fun q => (p.1, p.2, q.1)))
/-- The cycle at which a row group falls due: from its last refresh, or from the launch's first step. -/
def Loom.deadline (l : Loom) (r : LoomRun) (b g : Nat) : Option Nat :=
  let last := match Tab.find? l.refresh (b * 8 + g) with
    | some c => some c
    | none => r.firstStep
  last.map (fun c => c + bandInterval (max r.band l.temperature))
/-- REFRESH_DEADLINE: the controller closes the bank if it is open, with its bit of sys.vclosed set, and refreshes the
group; while the launch holds the loom it writes record 0x506. -/
def execRefreshDeadline (loom bank group : Nat) (s : State) : Host.Outcome State Fault Refusal :=
  if 1280 ≤ loom || 20 ≤ bank || 8 ≤ group then .fault .noSuchAgent
  else
    let l := s.loom loom
    .next (match l.bankOwner bank with
      | none => s
      | some (id, r, q) =>
        match l.deadline r bank group with
        | none => s
        | some d =>
          if s.cycle < d then s
          else
            let k := l.bank bank
            let (n, s1) := s.drawTime .refresh
            let s2 := if k.row.isSome then
                s1.updLoom loom (fun x => x.updSeqOf q id (fun y => { y with vclosed := y.vclosed ||| (1#20 <<< bank) }))
              else s1
            let s3 := s2.updLoom loom (fun x => { x with
              banks := Tab.put x.banks bank { k with row := none, refreshEnds := some (s.cycle + 1 + n % 200) }
              refresh := Tab.put x.refresh (bank * 8 + group) s.cycle })
            if r.suspended then s3
            else
              let sw := if k.switched.getLsbD group then 256 else 0
              s3.recordAt loom r.tenancy 15 15 3 3 0x506 0#14 0 0 (BitVec.ofNat 64 (bank * 2 ^ 32 + sw + group)) (some id))
/-- CONTROLLER_REFRESH_END: the controller's own refresh of a bank ends. -/
def execControllerRefreshEnd (loom bank : Nat) (s : State) : Host.Outcome State Fault Refusal :=
  if 1280 ≤ loom || 20 ≤ bank then .fault .noSuchAgent
  else .next (match Tab.find? (s.loom loom).banks bank with
    | some k => s.updLoom loom (fun x => { x with banks := Tab.put x.banks bank { k with refreshEnds := none } })
    | none => s)
/-- VAULT_TEMPERATURE_CHANGE: bands 0 to 2, and 3 above 105 °C, which contains the loom. The first rise above a launch's
declared band on the loom writes record 0x507; one that began above it has written it then. -/
def execVaultTemperatureChange (loom band : Nat) (s : State) : Host.Outcome State Fault Refusal :=
  if 1280 ≤ loom || 4 ≤ band then .fault .noSuchAgent
  else
    let s1 := s.updLoom loom (fun x => { x with temperature := band })
    let hot := (s.loom loom).runs.filter (fun p => p.2.band < band && (s.loom loom).temperature < band)
    let s2 := hot.foldl (fun s p => s.reportBand loom p.1) s1
    .next (if 3 ≤ band then s2.contain loom else s2)

end Sys2Proof.Machine
end

