-- ==== Sys2Proof/Machine/Debug.lean ====
section
/-!
DEFINITION. The debug page, the dump, the fault-record registers, and the snapshot of a virtual function (R276, R292, R294 to
R302, R312, R317 to R319, R391, R397 to R399, R404 to R406).
-/

namespace Sys2Proof.Machine

/-! ## The debug page (R294 to R299) -/

/-- The loom that DBGLOOM selects, while it lies in the tenancy's partition. -/
def State.selected (s : State) (t : Nat) : Option Nat :=
  let l := (s.tenancy t).dbgloom.toNat
  if l < 1280 && (s.tenancy t).partition.contains (clusterOf l) then some l else none
/-- Change a tenancy's debug copy. -/
def State.updDebug (s : State) (l t : Nat) (f : DebugCopy → DebugCopy) : State :=
  s.updLoom l (fun x => { x with debug := Tab.put x.debug t (f (x.debugOf t)) })
/-- Select a loom of the partition; any other value is discarded. -/
def State.selectLoom (s : State) (t : Nat) (value : DWord) : State :=
  if value.toNat < 1280 && (s.tenancy t).partition.contains (clusterOf value.toNat) then
    s.updTenancy t (fun x => { x with dbgloom := value.extractLsb' 0 11 })
  else s
/-- Is a sequencer of a loom the tenancy's own? -/
def Loom.ownedBy (l : Loom) (t : Nat) (q : Seq) : Bool :=
  match l.run q.launch with
  | some r => r.tenancy = t
  | none => false
/-- Resume each named stopped sequencer of a tenancy on a loom, switched out or not. -/
def Loom.resumeNamed (l : Loom) (t : Nat) (mask : BitVec 8) (cycle : Nat) : Loom :=
  let one := fun (p : Nat × Seq) =>
    if mask.getLsbD p.1 && l.ownedBy t p.2 then (p.1, p.2.resume cycle) else p
  { l with
    seqs := List.map one l.seqs, saved := Tab.map l.saved (fun v => { v with seqs := List.map one v.seqs }) }
/-- DBGLOOM_WRITE: while a dump is in progress it takes effect when the dump ends (R406). -/
def execDbgloomWrite (tenancy : Nat) (value : DWord) (s : State) : Host.Outcome State Fault Refusal :=
  if 64 ≤ tenancy then .fault .noSuchAgent
  else .next (match (s.tenancy tenancy).dump with
    | some d => s.updTenancy tenancy (fun x => { x with dump := some { d with later := d.later ++ [(false, value)] } })
    | none => s.selectLoom tenancy value)
/-- A write of DBGRESUME that takes effect. -/
def State.dbgresume (s : State) (t : Nat) (value : DWord) : State :=
  match s.selected t with
  | none => s
  | some l => s.updLoom l (fun x => x.resumeNamed t (value.extractLsb' 0 8) s.cycle)
/-- DBGRESUME. -/
def execDbgresume (tenancy : Nat) (value : DWord) (s : State) : Host.Outcome State Fault Refusal :=
  if 64 ≤ tenancy then .fault .noSuchAgent
  else .next (match (s.tenancy tenancy).dump with
    | some d => s.updTenancy tenancy (fun x => { x with dump := some { d with later := d.later ++ [(true, value)] } })
    | none => s.dbgresume tenancy value)
/-- The bits of a comparator that are not reserved (Table 17.2). -/
def compMask : DWord := 0xFFFFFFF8003FFFF0#64
/-- COMP_WRITE: in force from the next cycle, when the count of matches is 0 again (R297). -/
def execCompWrite (tenancy comparator : Nat) (value : DWord) (s : State) : Host.Outcome State Fault Refusal :=
  if 64 ≤ tenancy || 16 ≤ comparator then .fault .noSuchAgent
  else .next (match s.selected tenancy with
    | none => s
    | some l => s.updLoom l (fun x =>
        { x with compWrites := x.compWrites ++ [(tenancy, comparator, value &&& compMask)] }))
/-- The comparator writes of a cycle that ends come into force. -/
def Loom.applyComps (l : Loom) : Loom :=
  l.compWrites.foldl (fun l w =>
    let d := l.debugOf w.1
    let d1 := { d with comps := Tab.set d.comps w.2.1 w.2.2 0#64, counts := Tab.set d.counts w.2.1 0 0 }
    { l with debug := Tab.put l.debug w.1 d1 })
    { l with compWrites := [] }
/-- REGISTER_WRITE: SARG, SNAPADDR, SNAPNONCE, DBGCTL, DRIFTLIMIT, DUMPADDR and DUMPLEN; a register that is only read keeps
its value. -/
def execRegisterWrite (tenancy : Nat) (offset : Nat) (value : DWord) (s : State) : Host.Outcome State Fault Refusal :=
  if 64 ≤ tenancy then .fault .noSuchAgent
  else
    let upd := fun (f : Tenancy → Tenancy) => s.updTenancy tenancy f
    let dbg := fun (f : DebugCopy → DebugCopy) =>
      match s.selected tenancy with
      | none => s
      | some l => s.updDebug l tenancy f
    .next (match offset with
      | 0x008 => upd (fun x => { x with sarg := value })
      | 0x020 => upd (fun x => { x with snapaddr := value })
      | 0x028 => upd (fun x => { x with snapnonce := value })
      | 0x1008 => dbg (fun d => { d with ctl := value &&& 1#64 })
      | 0x1020 => dbg (fun d => { d with drift := value.extractLsb' 0 32 })
      | 0x1030 => upd (fun x => { x with dumpaddr := value })
      | 0x1038 => upd (fun x => { x with dumplen := value.extractLsb' 0 32 })
      | _ => s)

/-! ## Host memory -/

/-- Send bytes to host memory, from an address upward, with a Relaxed Ordering attribute (R270). -/
def State.hostSend (s : State) (a : Nat) (bs : List Byte) (relaxed : Bool) : State :=
  if bs = [] then s
  else { s with host := s.host.writeBytes a bs, hostWrites := (a, relaxed) :: s.hostWrites }

/-! ## The dump (R302, R404 to R406) -/

/-- The stopped sequencers of a tenancy on a loom, switched out or not. -/
def Loom.stoppedOf (l : Loom) (t : Nat) : List (Nat × Seq) :=
  let from_ := if l.holder = some t then l.seqs else (Tab.get l.saved t Saved.empty).seqs
  from_.filter (fun p => p.2.isStopped && l.ownedBy t p.2)
/-- A stop record of 32 bytes. -/
def stopRecord (q : Nat) (x : Seq) : List Byte :=
  match x.status with
  | .stopped st =>
    leBytes 8 st.pick ++ leBytes 8 st.step ++ leBytes 2 st.done.toNat ++ leBytes 1 st.lane ++ leBytes 1 st.comparator ++
      leBytes 1 q ++ leBytes 11 0
  | _ => leBytes 32 0
/-- The allotted vector registers in ascending number (R15). -/
def allotted (alloc : Nat) : List Nat := (List.range 96).filter (fun r => r % 32 < alloc / 3)
/-- The registers that Table 17.5 puts in 64 bytes, in its order. -/
def Seq.dumpedRegisters (x : Seq) : List Nat :=
  [x.dt.toNat, x.ct.toNat] ++ (List.range 6).map (fun d => (Tab.get x.li d 0#32).toNat) ++
  (List.range 2).map (fun j => (Tab.get x.sl j 0#8).toNat) ++ [x.rmm.toNat, x.nanSeen.toNat, x.fflags.toNat, x.frm.toNat, x.pc.toNat] ++
  x.loops.flatMap (fun e => [e.left, e.first, e.last, e.depth, e.rep.toNat, e.stride])
/-- The held slots of lanes 0 to 13. -/
def Seq.dumpedHolds (x : Seq) : List Nat :=
  (List.range 14).flatMap (fun k => match Tab.find? x.held k with
    | none => [0]
    | some h => [1, h.word.toNat, (h.lent.map (fun l => 1 + l.toNat)).getD 0, h.count, h.offset])
/-- One stopped sequencer's state (Table 17.5). How its 64 bytes of registers and its 224 of held slots are packed is not given, and
free (log 4); the last 352 are not interpreted. -/
def seqImage (draw q : Nat) (x : Seq) : List Byte :=
  (List.range 64).flatMap (fun r => leBytes 8 (x.rdS r).toNat) ++
  (allotted x.alloc).flatMap (fun r => leBytes 128 (x.rdV r).toNat) ++
  (List.range 24).flatMap (fun r => leBytes 16 (x.rdQ r).toNat) ++
  (List.range 64).map (Config.packedByte x.dumpedRegisters) ++ (List.range 224).map (Config.packedByte x.dumpedHolds) ++
  (List.range 352).map (fun i => Config.snapshotAreaByte draw (q * 352 + i))
/-- DBGSTOP: the stopped sequencers of a tenancy on a loom. -/
def Loom.dbgstop (l : Loom) (t : Nat) : Nat := (l.stoppedOf t).foldl (fun m p => m + 2 ^ p.1) 0
/-- The image of a loom for a tenancy: its 64-byte header and what follows. -/
def State.dumpImage (s : State) (t l : Nat) : List Byte × List Byte :=
  let x := s.loom l
  let stopped := x.stoppedOf t
  let mask := x.dbgstop t
  let records := if x.holder = some t then x.trace else []
  let body := stopped.flatMap (fun p => stopRecord p.1 p.2) ++ stopped.flatMap (fun p => seqImage s.free p.1 p.2) ++
    records.flatMap (fun r => leBytes 16 r.toNat)
  (leBytes 2 l ++ leBytes 1 mask ++ leBytes 1 0 ++ leBytes 4 records.length ++ leBytes 4 (64 + body.length) ++ leBytes 52 0,
   body)
/-- The poisoned lines of an image: state that is held in the loom has no poison, a line of saved state may have (R405; DESIGN
CHOICE, log 73). -/
def State.imagePoison (s : State) (t l : Nat) (body : List Byte) : List Nat :=
  if (s.loom l).holder = some t then [] else (linesOf 0 body.length).filter (Config.savedPoison s.free)
/-- The first `sent` bytes of a dump's image go out: a poisoned line with the EP bit set, and with record 0x906 (R369, R405), OPERAND the
line's host address (DESIGN CHOICE, log 73). -/
def State.sendImage (s : State) (t : Nat) (d : Dump) (sent : Nat) : State :=
  (d.poisoned.filter (fun k => 64 * k < sent)).foldl (fun s k =>
    let a := d.addr + 64 + 64 * k
    ((linesOf a 64).foldl (fun s j => s.setFarPoison 3 0 j true) s).report d.loom t 15 15 0x906 0 0 (BitVec.ofNat 64 a) none)
    (s.hostSend (d.addr + 64) (d.image.take sent) true)
/-- DUMPGO: a write of 1 captures the image; one that does not fit writes its header alone, where 64 bytes are there. -/
def execDumpgo (tenancy : Nat) (value : DWord) (s : State) : Host.Outcome State Fault Refusal :=
  if 64 ≤ tenancy then .fault .noSuchAgent
  else
    let x := s.tenancy tenancy
    .next (if value ≠ 1#64 || x.dumpgo then s
      else match s.selected tenancy with
      | none => s
      | some l =>
        let (h, body) := s.dumpImage tenancy l
        let (e, s1) := s.endOf .dump
        let small := x.dumplen.toNat < 64 + body.length
        let d : Dump :=
          { loom := l, addr := x.dumpaddr.toNat, image := if small then [] else body
            header := if x.dumplen.toNat < 64 then [] else h, small := small
            traced := (s.loom l).holder = some tenancy, count := (s.loom l).tracecount tenancy
            poisoned := if small then [] else s.imagePoison tenancy l body, endsAt := e, later := [] }
        s1.updTenancy tenancy (fun y => { y with dumpgo := true, dump := some d }))
/-- A loom after a dump of a tenancy: TRACECOUNT counts what has been written since the capture, and of the records, where the image
held them, those stay that the trace memory has received since (R302, R406). -/
def Loom.dumped (l : Loom) (t : Nat) (traced : Bool) (count : DWord) : Loom :=
  let newer := (l.tracecount t).toNat - count.toNat
  let l1 := { l with traceCounts := Tab.put l.traceCounts t (BitVec.ofNat 64 newer) }
  if traced && l.holder.getD l.lastHolder = t then { l1 with trace := l.trace.drop (l.trace.length - newer) } else l1
/-- A dump ends: its status is set, and the writes that waited for it take effect in their order. -/
def State.endDump (s : State) (t result sent : Nat) (later : List (Bool × DWord)) : State :=
  let s1 := s.updTenancy t (fun x => { x with
    dumpgo := false, dump := none, dumpstat := BitVec.ofNat 64 (sent * 2 ^ 32 + result) })
  later.foldl (fun s w => if w.1 then s.dbgresume t w.2 else s.selectLoom t w.2) s1
/-- DUMP_COMPLETE: the image from offset 64 upward, a release at sys scope, and the header last. -/
def execDumpComplete (tenancy : Nat) (s : State) : Host.Outcome State Fault Refusal :=
  if 64 ≤ tenancy then .fault .noSuchAgent
  else .next (match (s.tenancy tenancy).dump with
    | none => s
    | some d =>
      let s1 := (s.sendImage tenancy d d.image.length).hostSend d.addr d.header false
      let s2 := if d.small then s1
        else s1.updLoom d.loom (fun x => x.dumped tenancy d.traced d.count)
      s2.endDump tenancy (if d.small then 2 else 1) (d.image.length + d.header.length) d.later)
/-- DUMP_ABANDON: a write cannot be sent, after `sent` bytes; the header is not written. -/
def execDumpAbandon (tenancy sent : Nat) (s : State) : Host.Outcome State Fault Refusal :=
  if 64 ≤ tenancy then .fault .noSuchAgent
  else .next (match (s.tenancy tenancy).dump with
    | none => s
    | some d =>
      let out := min sent d.image.length
      ((s.sendImage tenancy d out).endDump tenancy 3 out d.later).recordAt d.loom tenancy 15 15 3 3 0xA40
        0#14 0 0 0#64 none)

/-! ## Fault records (R312, R317 to R319) -/

/-- FLTACK: COUNT falls by the value, no lower than 0; nothing resumes (R318). -/
def execFltack (tenancy : Nat) (value : DWord) (s : State) : Host.Outcome State Fault Refusal :=
  if 64 ≤ tenancy then .fault .noSuchAgent
  else .next (s.updTenancy tenancy (fun x => { x with fltCount := x.fltCount - min value.toNat x.fltCount }))
/-- STOP, LOOM and AGENT of a record. -/
def FaultRecord.stop (r : FaultRecord) : Nat := (r.word0.extractLsb' 30 2).toNat
def FaultRecord.loom (r : FaultRecord) : Nat := (r.word1.extractLsb' 21 11).toNat
def FaultRecord.agent (r : FaultRecord) : Nat := (r.word1.extractLsb' 11 4).toNat
def FaultRecord.lane (r : FaultRecord) : Nat := (r.word1.extractLsb' 7 4).toNat
/-- The engine of an agent number. -/
def agentEngine (a : Nat) : Option Engine :=
  match a with
  | 8 => some .matrix
  | 10 => some .shuttle
  | 11 => some .jacquard
  | 12 => some .fill
  | _ => none
/-- A stopped command goes on from its cursor, as if its next chunk had just been requested; from cursor 0 it begins afresh
(R315, R317). -/
def Cmd.retry (c : Cmd) (cycle : Nat) : Cmd :=
  let c1 := { c with stopped := false, requested := some (cycle + 1), waitedSince := none, waitReported := false }
  if c.cursor = 0#64 && c.op ≠ .jgc then
    { c1 with begun := false, active := false, work := { stack := [], acc := 0#64, index := 0, begun := false, finished := false } }
  else c1
/-- Is a stopped command the one that a record names? A sequencer issues one command to an engine in a cycle. -/
def FaultRecord.names (r : FaultRecord) (c : Cmd) : Bool :=
  c.stopped && r.command == some (c.seq, c.stamp) && (r.launch.isNone || r.launch == some c.launch)
/-- Restart the stopped command that a record names, in one queue. -/
def retryIn (q : List Cmd) (r : FaultRecord) (cycle : Nat) : List Cmd :=
  q.map (fun c => if r.names c then c.retry cycle else c)
/-- FLTRETRY: a record that is no chunk-boundary stop, or whose command no longer exists, has no effect. -/
def execFltretry (tenancy : Nat) (value : DWord) (s : State) : Host.Outcome State Fault Refusal :=
  if 64 ≤ tenancy then .fault .noSuchAgent
  else .next (match Tab.find? (s.tenancy tenancy).faults (value.extractLsb' 0 6).toNat with
    | none => s
    | some r =>
      match agentEngine r.agent with
      | none => s
      | some e =>
        if r.stop ≠ 1 then s
        else
          let l := if r.loom < 1280 then r.loom else streamPort tenancy
          s.updLoom l (fun x => { x with
            queues := x.queues.put e (retryIn (x.queues.get e) r s.cycle)
            saved := Tab.map x.saved (fun v => { v with queues := v.queues.put e (retryIn (v.queues.get e) r s.cycle) }) }))
/-- FLTEND: ends the launch of a record at once. -/
def execFltend (tenancy : Nat) (value : DWord) (s : State) : Host.Outcome State Fault Refusal :=
  if 64 ≤ tenancy then .fault .noSuchAgent
  else .next (match (Tab.find? (s.tenancy tenancy).faults (value.extractLsb' 0 6).toNat).bind (·.launch) with
    | none => s
    | some id => s.endLaunchNow id)

/-! ## What BAR0 of a virtual function reads (Tables 16.1, 17.1, 22.4, 28.2, 28.7; R312, R370) -/

/-- FLTSTAT. -/
def Tenancy.fltstat (t : Tenancy) : DWord := BitVec.ofNat 64 (t.fltLost * 65536 + t.fltCount * 256 + t.fltWr)
/-- 64 bits of a fault record, from byte 8 j on. -/
def FaultRecord.part (r : FaultRecord) (j : Nat) : DWord :=
  match j with
  | 0 => r.word1 ++ r.word0
  | 1 => r.pick
  | 2 => r.step
  | _ => r.operand
/-- A debug register of the loom that DBGLOOM selects. While it selects none, DBGSTOP and TRACECOUNT read 0 (R294); so do the
others (DESIGN CHOICE, log 47). -/
def State.debugRead (s : State) (t : Nat) (f : Loom → DWord) : DWord := (s.selected t).elim 0#64 (fun l => f (s.loom l))
/-- The 64 bits that a read of BAR0 returns; a register that is only written, and an offset that none has, read 0. -/
def State.barRead (s : State) (t offset : Nat) : DWord :=
  let x := s.tenancy t
  let debug := s.debugRead t
  if 0x2000 ≤ offset && offset < 0x2800 && offset % 8 = 0 then
    (Tab.find? x.faults ((offset - 0x2000) / 32)).elim 0#64 (fun r => r.part (offset / 8 % 4))
  else if 0x1100 ≤ offset && offset < 0x1180 && offset % 8 = 0 then
    debug (fun l => Tab.get (l.debugOf t).comps ((offset - 0x1100) / 8) 0#64)
  else
    match offset with
    | 0x000 => x.spc
    | 0x008 => x.sarg
    | 0x010 => x.sstat
    | 0x020 => x.snapaddr
    | 0x028 => x.snapnonce
    | 0x030 => BitVec.ofNat 64 x.snapgo.toNat
    | 0x040 => x.snapstat
    | 0x1000 => x.dbgloom.zeroExtend 64
    | 0x1008 => debug (fun l => (l.debugOf t).ctl)
    | 0x1010 => debug (fun l => BitVec.ofNat 64 (l.dbgstop t))
    | 0x1020 => debug (fun l => (l.debugOf t).drift.zeroExtend 64)
    | 0x1028 => debug (fun l => l.tracecount t)
    | 0x1030 => x.dumpaddr
    | 0x1038 => x.dumplen.zeroExtend 64
    | 0x1040 => BitVec.ofNat 64 x.dumpgo.toNat
    | 0x1048 => x.dumpstat
    | 0x1800 => x.fltstat
    | 0x1820 => x.cecount.zeroExtend 64
    | _ => 0#64

/-! ## Snapshots (R292, R397 to R399) -/

/-- FWHASH of the image that the device runs. -/
def State.fwhash (s : State) : BitVec 256 := Config.fwhash s.boot.imageB

/-- Bytes 0 to 319 of a snapshot record (Table 16.6). -/
def State.snapshotBytes (s : State) (t : Nat) : List Byte :=
  let total := (List.range 26).map (fun k => s.counterTotal t k)
  let sticky := ((List.range 26).filter (fun k => (total.getD k Counter.zero).sticky)).foldl (fun m k => m + 2 ^ k) 0
  leBytes 2 1 ++ leBytes 2 t ++ leBytes 4 0 ++ leBytes 8 (s.tenancy t).nextSnap ++ leBytes 8 (s.tenancy t).snapnonce.toNat ++
    leBytes 8 s.cycle ++ leBytes 32 Config.devid.toNat ++ leBytes 32 s.fwhash.toNat ++
    total.flatMap (fun c => leBytes 8 c.value.toNat) ++ leBytes 4 sticky ++ leBytes 12 0
/-- SNAPGO: a write of 1 captures every counter at this cycle; while it reads 1, and for any other value, nothing (R276). -/
def execSnapgo (tenancy : Nat) (value : DWord) (s : State) : Host.Outcome State Fault Refusal :=
  if 64 ≤ tenancy then .fault .noSuchAgent
  else
    let x := s.tenancy tenancy
    .next (if value ≠ 1#64 || x.snapgo then s
      else
        let (e, s1) := s.endOf .signing
        let sn : Snapshot :=
          { seqno := x.nextSnap, addr := x.snapaddr.toNat, bytes := s.snapshotBytes tenancy, endsAt := e }
        s1.updTenancy tenancy (fun y => { y with snapgo := true, nextSnap := y.nextSnap + 1, snapshot := some sn }))
/-- The bytes of a signature (R291). -/
def signature (body : List Byte) : List Byte := (List.range 49856).map (fun i => Config.signatureByte body i)
/-- SNAPSHOT_COMPLETE: the record is written and SNAPGO cleared. `verifies` is the signing, 1 or 2, whose signature verifies;
at any other value both fail, and the record carries zeros in its place (R399). -/
def execSnapshotComplete (tenancy : Nat) (verifies : Nat) (s : State) : Host.Outcome State Fault Refusal :=
  if 64 ≤ tenancy then .fault .noSuchAgent
  else .next (match (s.tenancy tenancy).snapshot with
    | none => s
    | some sn =>
      let ok := verifies = 1 || verifies = 2
      let sig := if ok then signature sn.bytes else List.replicate 49856 0#8
      let s1 := (s.hostSend sn.addr (sn.bytes ++ sig) true).updTenancy tenancy (fun x => { x with
        snapgo := false, snapshot := none, snapstat := BitVec.ofNat 64 (sn.seqno * 256 + (if ok then 1 else 2)) })
      if ok then s1 else s1.recordAt 0x7FF tenancy 15 15 3 3 0xA12 0#14 0 0 0#64 none)

end Sys2Proof.Machine
end

