-- ==== Sys2Proof/Machine/Host.lean ====
section
/-!
DEFINITION. The host and the management controller: posted writes and reads of the aperture, resets, the boot steps and their
record, membership signing, weights, partitions, keys and the domain (R8, R89, R282, R285, R288, R293, R393, R396, R397,
R399 to R402).
-/

namespace Sys2Proof.Machine

/-! ## Posted writes and reads of the host (R393) -/

/-- The key of the aperture at an address: that of the tenancy's window that maps it (R89). DESIGN CHOICE (log 45): where none does,
a key of zeros. -/
def State.apertureKey (s : State) (t addr : Nat) : BitVec 512 :=
  (List.find? (fun (w : Nat × BitVec 128) =>
    winKind w.2 = 1 && winTarget w.2 0 ≤ addr && addr < winTarget w.2 0 + winRun w.2 * 65536) (s.tenancy t).windows).elim 0#512
    (fun w => s.keyOf w.2)
/-- A host write becomes visible: in host memory, or in tier-2 memory through the aperture. -/
def State.hostVisible (s : State) (w : HostWrite) : State :=
  if w.toHost then { s with host := s.host.writeBytes w.addr w.bytes }
  else if s.unreachable 1 w.addr then s
  else s.farStore 1 0 (s.apertureKey w.tenancy w.addr) w.addr w.bytes false
/-- Every posted write of a requester that is not visible yet becomes visible, in order. -/
def State.flushPosted (s : State) (t : Nat) : State :=
  ((s.tenancy t).hostPosted).foldl (fun s w => s.hostVisible w) (s.updTenancy t (fun x => { x with hostPosted := [] }))
/-- A posted write of a requester is under way. -/
def State.postHost (s : State) (w : HostWrite) : State :=
  s.updTenancy w.tenancy (fun x => { x with hostPosted := x.hostPosted ++ [w] })
/-- HOST_POSTED_WRITE: it becomes visible now or later, and nothing says which; with Relaxed Ordering clear, after every earlier
one. -/
def execHostPostedWrite (write : HostWrite) (s : State) : Host.Outcome State Fault Refusal :=
  if 64 ≤ write.tenancy then .fault .noSuchAgent
  else .next (if write.toHost then s.hostVisible write
    else
      let (now, s1) := s.drawFree
      if !now.getLsbD 0 then s1.postHost write
      else if write.relaxed then s1.hostVisible write
      else (s1.flushPosted write.tenancy).hostVisible write)
/-- Of the writes that a requester has under way, each may become visible: one with Relaxed Ordering clear when none before it is
left, one with it set whatever is. -/
def State.agePosts (s : State) (ws left : List HostWrite) : List HostWrite × State :=
  match ws with
  | [] => (left, s)
  | w :: rest =>
    let (now, s1) := s.drawFree
    if now.getLsbD 0 && (w.relaxed || left = []) then State.agePosts (s1.hostVisible w) rest left
    else State.agePosts s1 rest (left ++ [w])
/-- A cycle ends: writes of the hosts that are under way may become visible. -/
def State.agePosted (s : State) : State :=
  s.tenancies.foldl (fun s p =>
    if p.2.hostPosted = [] then s
    else
      let (left, s1) := s.agePosts p.2.hostPosted []
      s1.updTenancy p.1 (fun x => { x with hostPosted := left })) s
/-- The tier-2 lines that leave the device to a host's read are checked (R90, R370): what is found there is reported with the controller
as the agent, OPERAND the line's address (R371; DESIGN CHOICE, log 45: an aperture access has no window). -/
def State.checkLeaving (s : State) (t : Nat) (key : BitVec 512) (lines : List Nat) : State :=
  lines.foldl (fun s k =>
    match s.checkFar 5 1 0 key [k] with
    | (some code, s1) => if code = 0x910 then s1 else s1.report 0x7FF t 15 15 code 0 0 (BitVec.ofNat 64 (64 * k)) none
    | (none, s1) => s1) s
/-- HOST_READ_REQUEST: a read of tier-2 memory through the aperture; with Relaxed Ordering clear, after every earlier posted
write has become visible. Its lines are verified as they leave. -/
def execHostReadRequest (tenancy addr size : Nat) (relaxed : Bool) (s : State) : Host.Outcome State Fault Refusal :=
  if 64 ≤ tenancy then .fault .noSuchAgent
  else
    let s1 := if relaxed then s else s.flushPosted tenancy
    let key := s1.apertureKey tenancy addr
    .next ((s1.checkLeaving tenancy key (linesOf addr size)).updTenancy tenancy (fun x => { x with
      hostRead := some (addr, s1.farBytes 1 0 key addr size) }))

/-! ## Resets (R288, R396, R397) -/

/-- The commands of a stream's port are dropped: all that they name is far, and no request for it is issued any more. -/
def Loom.dropPort (l : Loom) : Loom := { l with queues := Queues.empty }
/-- Key slots that a tenancy's window table names. -/
def Tenancy.slots (t : Tenancy) : List Nat :=
  (List.map (fun (p : Nat × BitVec 128) => p.2) t.windows).filterMap (fun e =>
    if winKind e = 0 then none else some (winKey e))
/-- A tenancy after its function-level reset: counters and SEQ stay, and an unfinished snapshot or dump is abandoned. -/
def Tenancy.flr (t : Tenancy) : Tenancy :=
  { Tenancy.reset with
    nextSnap := t.nextSnap
    snapstat := match t.snapshot with
      | some sn => BitVec.ofNat 64 (sn.seqno * 256 + 3)
      | none => t.snapstat
    msix := t.msix, dumpaddr := t.dumpaddr, dumplen := t.dumplen
    dumpstat := t.dumpstat
    ports := t.ports, saturated := t.saturated, partition := t.partition, images := t.images, groups := t.groups
    streamWindows := t.streamWindows, hostRead := t.hostRead }
/-- A function-level reset cuts a dump off: the bytes that it has sent by then, a free number of them, stay as sent (R405). -/
def State.cutDump (s : State) (t : Nat) : State :=
  match (s.tenancy t).dump with
  | none => s
  | some d =>
    let (v, s1) := s.drawFree
    let sent := v.toNat % (d.image.length + 1)
    (s1.sendImage t d sent).updTenancy t (fun x => { x with
      dump := none, dumpstat := BitVec.ofNat 64 (sent * 2 ^ 32 + 3) })
/-- Every launch of a tenancy ends at once, and no token is set. -/
def State.endTenancy (s : State) (t : Nat) : State :=
  (s.launches.filter (fun p => p.2.tenancy = t && p.2.phase ≠ .ended)).foldl (fun s p =>
    (s.release p.1 t).updLaunch p.1 (fun x => { x with phase := .ended, faulted := true })) s
/-- A loom after a tenancy's function-level reset: scrubbed, with the tenancy's debug copy as at reset. -/
def Loom.flr (l : Loom) (t : Nat) : Loom :=
  let l1 := if l.unscrubbed.any (fun u => u.1 = t) then l.scrubFor 64 0 [] else l
  { l1 with
    debug := Tab.drop l1.debug t, compWrites := l1.compWrites.filter (fun w => w.1 ≠ t)
    transfer := l1.transfer.map (fun m => { m with payer := m.payer.filter (fun n => n ≠ t) }) }
/-- FUNCTION_LEVEL_RESET. -/
def execFunctionLevelReset (tenancy : Nat) (s : State) : Host.Outcome State Fault Refusal :=
  if 64 ≤ tenancy then .fault .noSuchAgent
  else
    let keys := (s.tenancy tenancy).slots
    let s1 := ((s.flushPosted tenancy).cutDump tenancy).updTenancy tenancy Tenancy.flr
    let s2 := s1.endTenancy tenancy
    .next { s2 with
      detected := s2.detected.filter (fun r => r.1 ≠ tenancy)
      farQueues := Tab.map s2.farQueues (fun q => q.filter (fun w => w.tenancy ≠ tenancy))
      farReads := s2.farReads.filter (fun p => p.2.tenancy ≠ tenancy)
      keys := s2.keys.filter (fun p => !keys.contains p.1)
      allocators := s2.allocators.filter (fun p => p.1 % 64 ≠ tenancy)
      looms := Tab.map (Tab.put s2.looms (streamPort tenancy) (s2.loom (streamPort tenancy)).dropPort)
        (fun l => l.flr tenancy) }

/-- What a device reset does not reach: other devices, the host, the flash, tier-2 memory, the controller's partitions and
weights, what the runtime has loaded, the vault's remap tables, and how often a loom has been contained in this power cycle (R324). -/
def State.afterReset (s : State) : State :=
  { State.reset with
    cycle := s.cycle, epoch := s.cycle + 1, deviceNumber := s.deviceNumber, domain := s.domain, nextLaunch := s.nextLaunch, nextId := s.nextId
    tier2 := s.tier2, tier2Poison := s.tier2Poison, tier2Ecc := s.tier2Ecc, host := s.host, hostWrites := s.hostWrites
    hostPoison := s.hostPoison, peers := s.peers, peerPoison := s.peerPoison, lineKeys := s.lineKeys, boot := s.boot
    physFaults := s.physFaults, physCorrected := s.physCorrected, arrivals := s.arrivals, turn := s.turn, free := s.free
    tenancies := Tab.map s.tenancies (fun t => { Tenancy.reset with
      partition := t.partition, images := t.images, groups := t.groups, streamWindows := t.streamWindows, msix := t.msix })
    looms := Tab.map s.looms (fun l => { Loom.reset with
      weights := l.weights, temperature := l.temperature, remap1 := l.remap1, remap2 := l.remap2
      offline := l.offline, containments := l.containments }) }
/-- The device as a start finds it: a power cycle begins, in which no loom has been contained (R324; DEDUCED, log 64). -/
def State.powerUp (s : State) : State :=
  let s0 := s.afterReset
  { s0 with looms := Tab.map s0.looms (fun l => { l with containments := 0 }) }
/-- DEVICE_RESET: every tenancy is reset, every counter is cleared, and every line of every scratchpad and vault is zero. -/
def execDeviceReset (s : State) : Host.Outcome State Fault Refusal := .next s.afterReset

/-! ## Boot (R372, R401, R402) -/

/-- The number of a unit in the record; the copy of the record itself has none. -/
def unitNumber (u : BootUnit) : Nat :=
  match u with
  | .config => 0 | .firmware => 1 | .pcie => 2
  | .hbm k => unitHbm k
  | .loom l => unitLoom l
  | .remap l => unitRemap l
  | .link j => 2571 + j
  | .record => 2589
/-- Does a unit's primary, or its alternate, fail in this start? -/
def failing (fs : List BootFailure) (u : BootUnit) (alternate : Bool) : Bool :=
  fs.any (fun f => f.unit = u && f.alternate = alternate)
/-- Steps 1 and 2, which try their alternate at once: the entry, and whether the start goes on. -/
def bootPair (fs : List BootFailure) (u : BootUnit) (old : Nat) : Nat × Bool :=
  if old = 0 && !failing fs u false then (0, true)
  else if !failing fs u true then (2, true)
  else (1, false)
/-- A later step: the entry that it leaves, and whether the unit is in service. -/
def bootStep (fs : List BootFailure) (u : BootUnit) (old : Nat) : Nat × Bool :=
  match old with
  | 0 => if failing fs u false then (1, false) else (0, true)
  | 1 | 2 => if failing fs u true then (3, false) else (2, true)
  | _ => (3, false)
/-- The steps of several units: the entries and the units out of service. -/
def bootSteps (fs : List BootFailure) (us : List BootUnit) (entries : Tab Nat) (out : List Nat) : Tab Nat × List Nat :=
  match us with
  | [] => (entries, out)
  | u :: rest =>
    let r := bootStep fs u (Tab.get entries (unitNumber u) 0)
    bootSteps fs rest (Tab.set entries (unitNumber u) r.1 0) (if r.2 then out else out ++ [(unitNumber u)])
/-- The units of steps 3 to 5 and 7 that can fail in a start: those in the failure list or with an entry. -/
def bootUnits (fs : List BootFailure) (entries : Tab Nat) : List BootUnit :=
  let named := fun (u : BootUnit) => fs.any (fun f => f.unit = u) || Tab.get entries (unitNumber u) 0 ≠ 0
  ([BootUnit.pcie] ++ (List.range 8).map BootUnit.hbm ++ (List.range 1280).map BootUnit.loom ++ (List.range 18).map BootUnit.link).filter named
/-- The steps over the vault remap tables, which R372 settles: a lost copy is written again from the other, and a table with
neither copy puts its loom offline. -/
def State.bootRemaps (s : State) (fs : List BootFailure) (l : Nat) : State :=
  (s.updLoom l (fun x => { x with remap1 := x.remap1 && !failing fs (.remap l) false
                                  remap2 := x.remap2 && !failing fs (.remap l) true })).loadRemap l
/-- DEVICE_BOOT: the steps of Table 28.6 in order, and the results in the other copy of the record. A loom whose remap table is in
state 3 has its step skipped, and stays offline (R402). -/
def execDeviceBoot (failures : List BootFailure) (s : State) : Host.Outcome State Fault Refusal :=
  let s0 := s.powerUp
  let entries := s0.boot.current.entries
  let config := bootPair failures .config (Tab.get entries 0 0)
  let firmware := bootPair failures .firmware (Tab.get entries 1 0)
  let e1 := Tab.set (Tab.set entries 0 config.1 0) 1 (if config.2 then firmware.1 else Tab.get entries 1 0) 0
  let fails := failures.any (fun f => f.unit = .record)
  .next (if !config.2 || !firmware.2 then
      { s0 with boot := { s0.boot.write e1 fails with out := [], recovery := true } }
    else
      let (e2, out) := bootSteps failures (bootUnits failures e1) e1 []
      let skipped := (List.range 1280).filter (fun l => Tab.get e2 (unitRemap l) 0 = 3)
      let tables := (List.range 1280).filter (fun l =>
        Tab.get e2 (unitRemap l) 0 ≠ 3 &&
        (failures.any (fun f => f.unit = .remap l) || !(s0.loom l).remap1 || !(s0.loom l).remap2))
      let lost := tables.filter (fun l =>
        (failing failures (.remap l) false || !(s0.loom l).remap1) && (failing failures (.remap l) true || !(s0.loom l).remap2))
      let e3 := lost.foldl (fun t l => Tab.set t (unitRemap l) 3 0) e2
      let down := out ++ (skipped ++ lost).map unitRemap
      let s1 := tables.foldl (fun s l => s.bootRemaps failures l)
        (skipped.foldl (fun s l => s.updLoom l (fun x => { x with offline := true }))
          { s0 with looms := Tab.map s0.looms (fun l => { l with offline := false }) })
      { s1 with boot := { s0.boot.write e3 fails with
          out := down, recovery := down.contains 2 && Tab.get e3 2 0 = 3, imageB := decide (firmware.1 = 2) } })
/-- BOOT_RECORD_CLEAR: the management controller returns an entry to state 0. -/
def execBootRecordClear (unit : BootUnit) (s : State) : Host.Outcome State Fault Refusal :=
  .next { s with boot := s.boot.write (Tab.drop s.boot.current.entries (unitNumber unit)) false }

/-! ## The management controller -/

/-- Bytes of a membership body (R293). -/
def membershipBytes (b : MembershipBody) : List Byte :=
  leBytes 16 b.jobid.toNat ++ leBytes 2 b.domain.toNat ++ leBytes 2 b.n.toNat ++ leBytes 12 0 ++ leBytes 32 b.fwhash.toNat ++
    b.devids.flatMap (fun d => leBytes 32 d.toNat)
/-- Strictly ascending in byte order, the first byte the most significant. -/
def ascending (l : List (List Byte)) : Bool :=
  match l with
  | [] => true
  | [_] => true
  | a :: b :: r => (a.map (·.toNat)) < (b.map (·.toNat)) && ascending (b :: r)
/-- The status of Table 28.5: a body that is malformed is so whatever it lists. -/
def State.membershipStatus (s : State) (b : MembershipBody) (verifies : Nat) : Nat :=
  if b.n = 0#16 || 4096 < b.n.toNat || b.devids.length ≠ b.n.toNat ||
      !ascending (b.devids.map (fun d => leBytes 32 d.toNat)) || s.domain ≠ some b.domain then 3
  else if !b.devids.contains Config.devid then 1
  else if b.fwhash ≠ s.fwhash then 2
  else if verifies = 1 || verifies = 2 then 0 else 4
/-- MEMBERSHIP_SIGN: signed only with status 0. -/
def execMembershipSign (body : MembershipBody) (verifies : Nat) (s : State) : Host.Outcome State Fault Refusal :=
  let status := s.membershipStatus body verifies
  .next { s with membership := some { status := status, signature := if status = 0 then signature (membershipBytes body) else [] } }
/-- WEIGHT_SET: a weight of 0 bars the tenancy's launches that wait for the loom (R338). -/
def execWeightSet (loom tenancy : Nat) (weight : BitVec 8) (s : State) : Host.Outcome State Fault Refusal :=
  if 1280 ≤ loom || 64 ≤ tenancy then .fault .noSuchAgent
  else
    let s1 := s.updLoom loom (fun x => { x with weights := Tab.put x.weights tenancy weight })
    .next (if weight = 0#8 && (s.loom loom).holder ≠ some tenancy then s1.reportStall loom tenancy else s1)
/-- PARTITION_ASSIGN: a list of clusters in ascending order (R282). -/
def execPartitionAssign (tenancy : Nat) (clusters : List Nat) (s : State) : Host.Outcome State Fault Refusal :=
  if 64 ≤ tenancy || !clusters.all (fun c => c < 80) then .fault .noSuchAgent
  else .next (s.updTenancy tenancy (fun x =>
    { x with partition := sortBy (fun a b => a ≤ b) clusters.eraseDups }))
/-- KEY_SLOT_LOAD. -/
def execKeySlotLoad (slot : BitVec 13) (key : BitVec 512) (s : State) : Host.Outcome State Fault Refusal :=
  .next { s with keys := Tab.set s.keys slot.toNat key 0#512 }
/-- DOMAIN_JOIN: the device takes its number in the domain (R8). -/
def execDomainJoin (domain : BitVec 16) (device : BitVec 12) (s : State) : Host.Outcome State Fault Refusal :=
  .next { s with domain := some domain, deviceNumber := device }

end Sys2Proof.Machine
end

