-- ==== Sys2Proof/Machine/Check.lean ====
section
/-!
DEFINITION. How a pick is checked before it issues (R314, R326 to R330, R342, R347): the stride of a repetition, the
registers that a slot names, the lowest code of each slot, and the comparators (R296 to R298).
-/

namespace Sys2Proof.Machine

/-! ## The stride of a repetition (R38, R347) -/

/-- A register number advanced by n, none past the last of its file. -/
def advanceField (w n last : Nat) (x : BitVec w) : Option (BitVec w) :=
  if last < x.toNat + n then none else some (BitVec.ofNat w (x.toNat + n))
/-- The vector register fields of a va, vb or vc slot, advanced. -/
def VecOps.advance (o : VecOps) (f : VecForm) (n : Nat) : Option VecOps :=
  let own := fun (k : FieldKind) (x : BitVec 5) => if k = .vreg then advanceField 5 n 31 x else some x
  let lent := match o.lent with
    | none => some none
    | some l => (own f.c l.c).map (fun c => some { l with c := c })
  match own f.d o.d, own f.b o.b, (if f.a = .vreg then advanceField 7 n 95 o.a else some o.a), lent with
  | some d, some b, some a, some l => some { o with d := d, b := b, a := a, lent := l }
  | _, _, _, _ => none
/-- The register fields of an fn slot, advanced: B for fdiv alone. -/
def FnOps.advance (o : FnOps) (two : Bool) (n : Nat) : Option FnOps :=
  match advanceField 7 n 95 o.d, advanceField 7 n 95 o.a, (if two then advanceField 7 n 95 o.b else some o.b) with
  | some d, some a, some b => some { o with d := d, a := a, b := b }
  | _, _, _ => none
/-- The register fields of an so slot, advanced: a P of 0x7F stays. -/
def SortOps.advance (o : SortOps) (n : Nat) : Option SortOps :=
  match advanceField 7 n 95 o.k, (if o.p = 0x7F#7 then some o.p else advanceField 7 n 95 o.p) with
  | some k, some p => some { o with k := k, p := p }
  | _, _ => none
/-- A slot with n added to every vector register field; none where a field reaches past its file. -/
def Slot.advance (x : Slot) (n : Nat) : Option Slot :=
  match x.o with
  | .vec o =>
    match x.m.vecForm with
    | some f => (VecOps.advance o f n).map (fun o => ⟨x.m, .vec o⟩)
    | none => some x
  | .fn o => (FnOps.advance o (x.m = .fnFdiv) n).map (fun o => ⟨x.m, .fn o⟩)
  | .sort o => (SortOps.advance o n).map (fun o => ⟨x.m, .sort o⟩)
  | _ => some x
/-- The words of a slot in a repetition whose stride addition is n: only va, vb, vc, fn and so slots change. -/
def RawSlot.advance (r : RawSlot) (lane : Lane) (n : Nat) : Option RawSlot :=
  if n = 0 then some r
  else
    match readSlot lane r.word r.lent with
    | none => some r
    | some x =>
      match x.o with
      | .vec _ | .fn _ | .sort _ => (Slot.advance x n).map (fun y => ⟨Slot.word y, Slot.lent y⟩)
      | _ => some r

/-! ## Vector registers that a slot names (R15, R329) -/

/-- Registers of va, vb and vc fields: D, B and C lie in the lane's cluster, A anywhere. -/
def VecOps.registers (o : VecOps) (f : VecForm) (cluster : Nat) : List Nat :=
  let own := fun (k : FieldKind) (x : BitVec 5) => if k = .vreg then [32 * cluster + x.toNat] else []
  own f.d o.d ++ own f.b o.b ++ (if f.a = .vreg then [o.a.toNat] else []) ++
    own f.c ((o.lent.map (fun l => l.c)).getD o.d)
/-- One register, or a pair. -/
def pairOf (e : BitVec 7) (two : Bool) : List Nat := if two then [e.toNat, e.toNat + 1] else [e.toNat]
/-- Every vector register that a slot names. -/
def Slot.vregs (x : Slot) (lane : Lane) : List Nat :=
  match x.o with
  | .vec o =>
    match x.m.vecForm with
    | some f => VecOps.registers o f (if lane = .vb then 1 else if lane = .vc then 2 else 0)
    | none => []
  | .fn o => [o.d.toNat, o.a.toNat] ++ (if x.m = .fnFdiv then [o.b.toNat] else [])
  | .sort o =>
    let two := x.m = .scx2d || x.m = .scx2a
    pairOf o.k two ++ (if o.p = 0x7F#7 then [] else pairOf o.p two)
  | .memSeg o =>
    match x.m with
    | .lvW256 | .lvW512 | .lvW1024 | .svW256 | .svW512 | .svW1024 | .lvg => [o.e.toNat]
    | .svg => pairOf o.e true
    | _ => []
  | .memCross o => if x.m = .lvx then [o.e.toNat] else []
  | .vaultCol o => pairOf o.e (o.ord = 3#2 && o.col.toNat < 32)
  | .memFar o => if x.m = .vldr || x.m = .vstr then [o.e.toNat] else []
  | _ => []
/-- Does a slot name a register outside an allotment (0x10A)? -/
def Slot.outside (x : Slot) (lane : Lane) (alloc : Nat) : Bool :=
  (Slot.vregs x lane).any (fun r => alloc / 3 ≤ r % 32)

/-! ## Lanes and forms that an agent may not use (R284, R330) -/

/-- cf forms that act on a loom (R277). -/
def loomForms : List Mnemonic :=
  [.loopq, .wait, .arrive, .arriveReg, .arrivew, .arrivewReg, .spawn, .mark, .yield, .taga, .tret, .tfold, .tset, .cqfill,
   .cqpush]
/-- cf forms that act on a stream (R166). -/
def streamForms : List Mnemonic := [.launch, .waitw, .signal]
/-- mx commands that name an accumulator tile. -/
def tileForms : List Mnemonic := [.mma, .mmaz, .mmag, .mmaw, .mzero, .mdrain, .mload]
/-- Does a slot name a resource that its launch's loomset record has not claimed (R284)? -/
def Slot.unclaimed (x : Slot) (lane : Lane) (uses : BitVec 16) : Bool :=
  (!uses.getLsbD 0 && ((lane = .zs && x.m ≠ .nop) || tileForms.contains x.m)) ||
  (!uses.getLsbD 1 && (x.m = .cqfill || x.m = .cqpush || x.m = .loopq))
/-- Is a slot one that the current sequencer may not issue (0x10D)? -/
def State.forbidden (s : State) (lane : Lane) (x : Option Slot) : Bool :=
  match s.cur.stream, x with
  | some _, some x =>
    !(lane = .sa || lane = .sb || lane = .sh || lane = .cf) || (lane = .cf && loomForms.contains x.m)
  | some _, none => !(lane = .sa || lane = .sb || lane = .sh || lane = .cf)
  | none, some x =>
    (lane = .cf && streamForms.contains x.m) || Slot.unclaimed x lane ((s.myRun.map (·.uses)).getD 0#16)
  | none, none => false

/-! ## The codes of a slot -/

/-- The fault of the slot's own bits, if any. -/
def encodingCode (lane : Lane) (r : RawSlot) : List Nat :=
  match checkSlot lane r.word r.lent with
  | .error c => [c]
  | .ok _ => []
/-- The faults of a transfer or a loop that Table 24.2 tests before 0x205. -/
def State.controlCodes (s : State) (x : Slot) : List Nat :=
  let target := fun (t : Int) => codeIf (s.badTarget t) 0x201
  let entry := fun (count : Nat) => codeIf (count ≠ 0 && 6 ≤ s.me.loops.length) 0x203
  match x.m, x.o with
  | .brc, .branch a n off => if (s.rS a != 0#64) != n then target (s.relative off.toInt) else []
  | .call, .callOff off => target (s.relative off.toInt)
  | .jmp, .reg a => target (s.rS a).toNat
  | .calli, .reg a => target (s.rS a).toNat
  | .ret, _ => target (s.rS 62#6).toNat
  | .loop, .loopImm cnt _ => entry cnt.toNat
  | .loopReg, .loopReg a _ => entry ((s.rS a).extractLsb' 0 32).toNat
  | .rep, .repImm cnt _ => entry cnt.toNat
  | .repReg, .repReg a _ => entry ((s.rS a).extractLsb' 0 32).toNat
  | .loopq, .loopQueue q _ => entry (((Tab.get (s.loom s.cur.loom).cq q.toNat []).headD 0#32).toNat)
  | .spawn, .spawn _ _ _ e => target (s.relative e.toInt)
  | _, _ => []
/-- Every code that a slot of the current sequencer meets before it issues; `n` is the stride addition of a repetition. The
slot of a repeated pick in cf is a nop or a mark (0x205). -/
def State.slotFaults (s : State) (lane : Lane) (r : RawSlot) (rep : Bool) (n : Nat) : List Nat :=
  let x := readSlot lane r.word r.lent
  let adv := RawSlot.advance r lane n
  let outside := fun (y : RawSlot) => match readSlot lane y.word y.lent with
    | some z => Slot.outside z lane s.me.alloc
    | none => false
  let quiet := match x with
    | some y => y.m = .nop || y.m = .mark
    | none => true
  encodingCode lane r ++
  (match adv with
    | some y => encodingCode lane y ++ codeIf (outside y) 0x10A
    | none => [0x109]) ++
  codeIf (hBit r.word && (s.cur.stream.isSome || lane = .cf)) 0x107 ++
  codeIf (s.forbidden lane x) 0x10D ++
  (if rep && lane = .cf && !quiet then 0x205 :: (x.map s.controlCodes).getD [] else [])

/-! ## Lane groups (R31, 0x108) -/

/-- A vector slot's claim: its lane groups, and whether it is heavy (R32). -/
structure Claim where
  size : Nat
  heavy : Bool
deriving DecidableEq, Repr
/-- Opcodes of heavy slots (R32). -/
def heavyForms : List Mnemonic := [.fmul, .fma, .imul, .imulh, .idot4]
/-- The claim of a va, vb or vc slot; none for a nop. -/
def claimOf (lane : Lane) (word : Word) (lent : Option (BitVec 10)) : Option Claim :=
  match readSlot lane word lent with
  | some ⟨m, .vec o⟩ => if o.w = 3#2 then none else some { size := 2 ^ o.w.toNat, heavy := heavyForms.contains m }
  | _ => none
/-- Lane groups of several claims together. -/
def groupsOf (l : List Claim) : Nat := l.foldl (fun n c => n + c.size) 0
/-- Is a lane one of va, vb and vc? -/
def Lane.isVector (l : Lane) : Bool := l = .va || l = .vb || l = .vc

/-! ## Comparators (R296 to R298) -/

/-- Does a comparator match a slot of sequencer q in a pick, or a held slot of a pick? -/
def comparatorMatches (c : DWord) (q pick holding : Nat) (t : Todo) : Bool :=
  let at_ := fun (p : Nat) => (c.extractLsb' 4 14).toNat == p / 16 % 16384
  c.getLsbD 63 && c.getLsbD (51 + q) && (c.extractLsb' 18 4).toNat == t.lane.index &&
  ((c.getLsbD 60 && !t.held && at_ pick) || (c.getLsbD 59 && t.held && at_ holding))
/-- A comparator that fires: its lane, number and ACT. -/
structure Fired where
  lane : Nat
  comparator : Nat
  act : Nat
deriving DecidableEq, Repr
/-- One match: the count grows, and fires at COUNT. ACT 3 never fires. -/
def DebugCopy.matched (d : DebugCopy) (lane k : Nat) (c : DWord) : DebugCopy × Option Fired :=
  let act := (c.extractLsb' 61 2).toNat
  let n := Tab.get d.counts k 0 + 1
  if act ≠ 3 && max 1 (c.extractLsb' 35 16).toNat ≤ n then
    ({ d with counts := Tab.set d.counts k 0 0 }, some { lane := lane, comparator := k, act := act })
  else ({ d with counts := Tab.set d.counts k n 0 }, none)
/-- Match slots with comparators, in ascending lane and comparator: the first that fires decides. -/
def DebugCopy.walk (d : DebugCopy) (q pick : Nat) (holding : Nat → Nat) (ts : List Todo) : DebugCopy × Option Fired :=
  ts.foldl (fun acc t =>
    (List.range 16).foldl (fun (acc : DebugCopy × Option Fired) k =>
      let c := Tab.get acc.1.comps k 0#64
      if comparatorMatches c q pick (holding t.lane.index) t then
        let r := acc.1.matched t.lane.index k c
        (r.1, if acc.2.isSome then acc.2 else r.2)
      else acc) acc) (d, none)
/-- Match the current sequencer's slots with its loom's comparators; a stream sequencer has none. -/
def State.walkComparators (s : State) (ts : List Todo) : Option (DebugCopy × Option Fired) :=
  match s.cur.stream with
  | some _ => none
  | none =>
    let x := s.me
    some (((s.loom s.cur.loom).debugOf s.myTenancy).walk s.cur.seq s.cur.pick
      (fun l => ((Tab.find? x.held l).map (·.pick)).getD 0) ts)
/-- Where a pick's issue ends: at a comparator on a lane at or below the lowest faulting lane, or at that lane. -/
def cutOf (fault : Option (Nat × Nat)) (fired : Option Fired) : Option Cut :=
  let byFault := fault.map (fun f => ({ lane := f.1, code := f.2, comparator := 16, all := false } : Cut))
  match fired with
  | none => byFault
  | some f =>
    if f.act = 2 || (match fault with | some x => x.1 < f.lane | none => false) then byFault
    else some { lane := f.lane, code := 0, comparator := f.comparator, all := f.act == 1 }

/-! ## The pick as it stands -/

/-- A pick that its sequencer could issue. -/
structure Ready where
  seq : Nat
  pick : Nat
  step : Nat
  bytes : Nat
  stop : Bool
  present : BitVec 14
  done : BitVec 14
  slots : List Todo       -- present and held slots still to issue, in lane order
  fault : Option (Nat × Nat)   -- the lowest faulting lane, with its code
  cut : Option Cut
  rep : Bool
  index : Nat
  resumed : Bool
  zadd : Option Nat       -- of a resumed pick: the tile of a zadd that has issued, and the bank that ma has named
  bank : Option (Nat × BankState)
  bound : List (Nat × Option BarrierRef)   -- and the barrier slots that it has bound (R407)
  scaled : List Nat
  lanes : BitVec 14       -- lanes that it uses, held ones included
  claims : List Claim
  needs : List (Nat × List Need)
  banks : List Nat        -- scratchpad banks of its lines
deriving DecidableEq, Repr
/-- Slots below the lane where the issue ends. -/
def Ready.issuing (r : Ready) : List Todo :=
  match r.cut with
  | none => r.slots
  | some c => r.slots.filter (fun t => t.lane.index < c.lane)
/-- A mask of lanes. -/
def laneMask (l : List Lane) : BitVec 14 := l.foldl (fun m x => m ||| (1#14 <<< x.index)) 0#14
/-- The repeat entry under which a pick is a repetition. -/
def Seq.repeating (q : Seq) (pick : Nat) : Option LoopEntry :=
  match q.loops with
  | e :: _ => if e.rep && e.first = pick then some e else none
  | [] => none
/-- Do a held slot and a step make it re-execute: a zadd only where a sum of its tile arrives (R34)? -/
def State.heldRuns (s : State) (lane : Lane) (h : HeldSlot) : Bool :=
  match checkSlot lane h.word h.lent with
  | .ok ⟨.zadd, .zs o⟩ =>
    let l := s.loom s.cur.loom
    l.arrivesAt s.cur.seq s.cur.step && match l.scaledCmd with
      | some (c, _) => c.ac = o.ac.toNat
      | none => false
  | _ => true
/-- Tiles that zld and zset slots of a pick name (R222). -/
def scaledTiles (ps : List (Lane × RawSlot)) : List Nat :=
  ps.filterMap (fun p => match p.1, checkSlot p.1 p.2.word p.2.lent with
    | .zs, .ok ⟨.zld, .zs o⟩ => some o.ac.toNat
    | .zs, .ok ⟨.zset, .zs o⟩ => some o.ac.toNat
    | _, _ => none)
/-- The next pick of the current sequencer, checked: its slots, the lane at which its issue ends, and its claims. -/
def State.readyPick (s : State) (ws : List Word) : Ready :=
  let x := s.me
  let h := ws.headD 0#32
  let ps := pickSlots ws
  let entry := x.repeating s.cur.pick
  let i := match entry with
    | some e => (Tab.get x.li e.depth 0#32).toNat
    | none => 0
  let n := match entry with
    | some e => e.stride * i
    | none => 0
  let old := match x.resuming with
    | some st => st.done
    | none => 0#14
  let slot := fun (p : Lane × RawSlot) =>
    let y := (RawSlot.advance p.2 p.1 n).getD p.2
    ({ lane := p.1, word := y.word, lent := y.lent, held := false, count := 0, offset := 0 } : Todo)
  let absent := allLanes.filter (fun l => !(ps.map (·.1)).contains l)
  let held := absent.filterMap (fun l => (Tab.find? x.held l.index).map (fun y => (l, y)))
  let heldTodo := (held.filter (fun p => s.heldRuns p.1 p.2)).map (fun p =>
    ({ lane := p.1, word := p.2.word, lent := p.2.lent, held := true, count := p.2.count, offset := p.2.offset } : Todo))
  let left := ((ps.map slot ++ heldTodo).filter (fun t => !old.getLsbD t.lane.index))
  let slots := sortBy (fun (a b : Todo) => a.lane.index ≤ b.lane.index) left
  let claimsOf := fun (ts : List (Lane × Word × Option (BitVec 10))) =>
    ts.filterMap (fun t => if Lane.isVector t.1 then claimOf t.1 t.2.1 t.2.2 else none)
  let claims := claimsOf (ps.map (fun p => (p.1, p.2.word, p.2.lent))) ++
    claimsOf (held.map (fun p => (p.1, p.2.word, p.2.lent)))
  let crowded := match (ps.map (·.1)).find? Lane.isVector, (held.map (·.1)).find? Lane.isVector with
    | some l, _ => if 8 < groupsOf claims then [(l, 0x108)] else []
    | none, some l => if 8 < groupsOf claims then [(l, 0x108)] else []
    | none, none => []
  let codes := crowded ++ (ps.filter (fun p => !old.getLsbD p.1.index)).flatMap (fun p =>
    (s.slotFaults p.1 p.2 entry.isSome n).map (fun c => (p.1, c)))
  let fault := (allLanes.find? (fun l => codes.any (fun c => c.1 = l))).bind (fun l =>
    (lowestCode ((codes.filter (fun c => c.1 = l)).map (·.2))).map (fun c => (l.index, c)))
  let fired := if x.resuming.isSome then none else (s.walkComparators slots).bind (·.2)
  { seq := s.cur.seq, pick := s.cur.pick, step := s.cur.step, bytes := 4 * ws.length, stop := headerStop h
    present := laneMask (ps.map (·.1)), done := old, slots := slots, fault := fault, cut := cutOf fault fired
    rep := entry.isSome, index := i, resumed := x.resuming.isSome
    zadd := x.resuming.bind (·.zadd), bank := x.resuming.bind (·.bank), bound := (x.resuming.map (·.bound)).getD [], scaled := scaledTiles ps
    lanes := laneMask (ps.map (·.1) ++ held.map (·.1)), claims := claims, needs := [], banks := [] }

end Sys2Proof.Machine
end

