-- ==== Sys2Proof/Machine/Scalar.lean ====
section
/-!
DEFINITION. The scalar lanes sa and sb (spec/09, R148 to R153, R340).
-/

namespace Sys2Proof.Machine

/-! ## Values (Tables 9.1, 9.2 and 24.1) -/

/-- 1 where a test holds, else 0. -/
def boolWord (b : Bool) : DWord := if b then 1#64 else 0#64
/-- The high half of the signed product. -/
def mulHigh (a b : DWord) : DWord := BitVec.ofInt 64 ((a.toInt * b.toInt) / 2 ^ 64)
/-- The high half of the unsigned product. -/
def mulHighU (a b : DWord) : DWord := BitVec.ofNat 64 ((a.toNat * b.toNat) / 2 ^ 64)
/-- Signed quotient, truncated; −1 for a zero divisor; −2^63 by −1 wraps (Table 24.1). -/
def divide (a b : DWord) : DWord := if b = 0#64 then BitVec.allOnes 64 else BitVec.ofInt 64 (a.toInt.tdiv b.toInt)
/-- Unsigned quotient; all ones for a zero divisor. -/
def divideU (a b : DWord) : DWord := if b = 0#64 then BitVec.allOnes 64 else BitVec.ofNat 64 (a.toNat / b.toNat)
/-- Signed remainder, with the sign of a; a for a zero divisor. -/
def remainder (a b : DWord) : DWord := if b = 0#64 then a else BitVec.ofInt 64 (a.toInt.tmod b.toInt)
/-- Unsigned remainder; a for a zero divisor. -/
def remainderU (a b : DWord) : DWord := if b = 0#64 then a else BitVec.ofNat 64 (a.toNat % b.toNat)
/-- Bits 5:0 of a shift amount. -/
def shiftAmount (b : DWord) : Nat := b.toNat % 64
/-- Leading zero bits, 0 to 64. -/
def leadingZeros (a : DWord) : DWord := if a = 0#64 then 64#64 else BitVec.ofNat 64 (63 - Nat.log2 a.toNat)
/-- Trailing zero bits, 0 to 64. -/
def trailingZeros (a : DWord) : DWord := if a = 0#64 then 64#64 else BitVec.ofNat 64 (Nat.log2 (a &&& -a).toNat)
/-- One bits, 0 to 64. -/
def popCount (a : DWord) : DWord := BitVec.ofNat 64 ((List.range 64).countP (fun i => a.getLsbD i))
/-- Position and length of a bit field: b[5:0], and b[11:6] with 0 for 64. -/
def fieldPos (b : DWord) : Nat := b.toNat % 64
def fieldLen (b : DWord) : Nat := if b.toNat / 64 % 64 = 0 then 64 else b.toNat / 64 % 64
/-- The low n bits set. -/
def lowMask (n : Nat) : DWord := BitVec.ofNat 64 (2 ^ n - 1)
/-- bext: bits pos + len − 1 to pos; bits above 63 read as zero. -/
def extractField (a b : DWord) : DWord := (a >>> fieldPos b) &&& lowMask (fieldLen b)
/-- bins: those bits replaced by the low bits of c. -/
def insertField (a b c : DWord) : DWord :=
  let m := lowMask (fieldLen b) <<< fieldPos b
  (a &&& ~~~m) ||| ((c <<< fieldPos b) &&& m)
/-- sext: bit n = b[5:0] copied upward. -/
def signExtendAt (a b : DWord) : DWord :=
  let k := 63 - shiftAmount b
  (a <<< k).sshiftRight k
/-- csel. -/
def selectWord (a b c : DWord) : DWord := if c ≠ 0#64 then a else b
/-- movk: bits 16k + 15 to 16k replaced; imm22 is k, four zeros, value. -/
def moveKeep (old : DWord) (imm : BitVec 22) : DWord :=
  let k := 16 * (imm.extractLsb' 20 2).toNat
  (old &&& ~~~(0xFFFF#64 <<< k)) ||| ((imm.extractLsb' 0 16).zeroExtend 64 <<< k)

/-! ## Binary64 (R151) -/

/-- The result of a binary64 operation under a rounding mode, its flags, and whether it meets the subnormal range. -/
def binary64Result (m : Mnemonic) (mode : BitVec 2) (a b : DWord) : Rounded :=
  let x := binary64.decode a.toNat
  let y := binary64.decode b.toNat
  let sub := binary64.subnormal a.toNat || binary64.subnormal b.toNat
  let test := fun (r : Bool × BitVec 5) => (⟨if r.1 then 1 else 0, r.2, sub⟩ : Rounded)
  let arith := fun (e : Exact) => let r := e.round binary64 mode; { r with tiny := r.tiny || sub }
  match m with
  | .fadd64 => arith (x.add y mode)
  | .fsub64 => arith (x.add y.neg mode)
  | .fmul64 => arith (x.mul y)
  | .fdiv64 => arith (x.div y binary64)
  | .fmin64 => arith (x.minMax y false)
  | .fmax64 => arith (x.minMax y true)
  | .feq => test (x.test y true (fun o => o == .eq))
  | .flt => test (x.test y false (fun o => o == .lt))
  | .fle => test (x.test y false (fun o => o != .gt))
  | .fcvtfi =>
    let r := x.toInt mode (-(2 ^ 63)) (2 ^ 63 - 1)
    ⟨(BitVec.ofInt 64 r.1).toNat, r.2, binary64.subnormal a.toNat⟩
  | .fcvtif => (⟨Num.ofInt a.toInt, 0#5⟩ : Exact).round binary64 mode
  | .fsqrt64 => let r := (x.sqrt binary64).round binary64 mode; { r with tiny := r.tiny || binary64.subnormal a.toNat }
  | _ => ⟨0, 0#5, false⟩
/-- A binary64 operation on two registers. -/
def State.binary64Reg (s : State) (m : Mnemonic) (o : ScalarReg) (lat : Nat) : State :=
  s.fp64 o.d lat (binary64Result m s.me.frm (s.rS o.a) (s.rS o.b))
/-- A binary64 operation on one register. -/
def State.binary64Unary (s : State) (m : Mnemonic) (o : ScalarUnary) (lat : Nat) : State :=
  s.fp64 o.d lat (binary64Result m s.me.frm (s.rS o.a) 0#64)

/-! ## The meanings -/

/-- nop (R112): no effect; a present nop with H = 0 releases its lane's hold, which the issue of its pick does (R33). -/
def execNop (s : State) : Host.Outcome State Fault Refusal := .next s

/-- add, I = 0 (Table 9.1). -/
def execAdd (o : ScalarReg) (s : State) : Host.Outcome State Fault Refusal :=
  .next (s.scalarReg o 1 (fun a b => a + b))
/-- add, I = 1 (Table 9.1). -/
def execAddImm (o : ScalarImm) (s : State) : Host.Outcome State Fault Refusal :=
  .next (s.scalarImm o 1 (fun a b => a + b))
/-- sub, I = 0 (Table 9.1). -/
def execSub (o : ScalarReg) (s : State) : Host.Outcome State Fault Refusal :=
  .next (s.scalarReg o 1 (fun a b => a - b))
/-- sub, I = 1 (Table 9.1). -/
def execSubImm (o : ScalarImm) (s : State) : Host.Outcome State Fault Refusal :=
  .next (s.scalarImm o 1 (fun a b => a - b))
/-- mul, I = 0 (Table 9.1). -/
def execMul (o : ScalarReg) (s : State) : Host.Outcome State Fault Refusal :=
  .next (s.scalarReg o 3 (fun a b => a * b))
/-- mul, I = 1 (Table 9.1). -/
def execMulImm (o : ScalarImm) (s : State) : Host.Outcome State Fault Refusal :=
  .next (s.scalarImm o 3 (fun a b => a * b))
/-- mulh, I = 0 (Table 9.1). -/
def execMulh (o : ScalarReg) (s : State) : Host.Outcome State Fault Refusal :=
  .next (s.scalarReg o 3 (fun a b => mulHigh a b))
/-- mulh, I = 1 (Table 9.1). -/
def execMulhImm (o : ScalarImm) (s : State) : Host.Outcome State Fault Refusal :=
  .next (s.scalarImm o 3 (fun a b => mulHigh a b))
/-- mulhu, I = 0 (Table 9.1). -/
def execMulhu (o : ScalarReg) (s : State) : Host.Outcome State Fault Refusal :=
  .next (s.scalarReg o 3 (fun a b => mulHighU a b))
/-- mulhu, I = 1 (Table 9.1). -/
def execMulhuImm (o : ScalarImm) (s : State) : Host.Outcome State Fault Refusal :=
  .next (s.scalarImm o 3 (fun a b => mulHighU a b))
/-- div, I = 0 (Table 9.1). -/
def execDiv (o : ScalarReg) (s : State) : Host.Outcome State Fault Refusal :=
  .next (s.scalarReg o 20 (fun a b => divide a b))
/-- div, I = 1 (Table 9.1). -/
def execDivImm (o : ScalarImm) (s : State) : Host.Outcome State Fault Refusal :=
  .next (s.scalarImm o 20 (fun a b => divide a b))
/-- divu, I = 0 (Table 9.1). -/
def execDivu (o : ScalarReg) (s : State) : Host.Outcome State Fault Refusal :=
  .next (s.scalarReg o 20 (fun a b => divideU a b))
/-- divu, I = 1 (Table 9.1). -/
def execDivuImm (o : ScalarImm) (s : State) : Host.Outcome State Fault Refusal :=
  .next (s.scalarImm o 20 (fun a b => divideU a b))
/-- rem, I = 0 (Table 9.1). -/
def execRem (o : ScalarReg) (s : State) : Host.Outcome State Fault Refusal :=
  .next (s.scalarReg o 20 (fun a b => remainder a b))
/-- rem, I = 1 (Table 9.1). -/
def execRemImm (o : ScalarImm) (s : State) : Host.Outcome State Fault Refusal :=
  .next (s.scalarImm o 20 (fun a b => remainder a b))
/-- remu, I = 0 (Table 9.1). -/
def execRemu (o : ScalarReg) (s : State) : Host.Outcome State Fault Refusal :=
  .next (s.scalarReg o 20 (fun a b => remainderU a b))
/-- remu, I = 1 (Table 9.1). -/
def execRemuImm (o : ScalarImm) (s : State) : Host.Outcome State Fault Refusal :=
  .next (s.scalarImm o 20 (fun a b => remainderU a b))
/-- and, I = 0 (Table 9.1). -/
def execAnd (o : ScalarReg) (s : State) : Host.Outcome State Fault Refusal :=
  .next (s.scalarReg o 1 (fun a b => a &&& b))
/-- and, I = 1 (Table 9.1). -/
def execAndImm (o : ScalarImm) (s : State) : Host.Outcome State Fault Refusal :=
  .next (s.scalarImm o 1 (fun a b => a &&& b))
/-- or, I = 0 (Table 9.1). -/
def execOr (o : ScalarReg) (s : State) : Host.Outcome State Fault Refusal :=
  .next (s.scalarReg o 1 (fun a b => a ||| b))
/-- or, I = 1 (Table 9.1). -/
def execOrImm (o : ScalarImm) (s : State) : Host.Outcome State Fault Refusal :=
  .next (s.scalarImm o 1 (fun a b => a ||| b))
/-- xor, I = 0 (Table 9.1). -/
def execXor (o : ScalarReg) (s : State) : Host.Outcome State Fault Refusal :=
  .next (s.scalarReg o 1 (fun a b => a ^^^ b))
/-- xor, I = 1 (Table 9.1). -/
def execXorImm (o : ScalarImm) (s : State) : Host.Outcome State Fault Refusal :=
  .next (s.scalarImm o 1 (fun a b => a ^^^ b))
/-- andn, I = 0 (Table 9.1). -/
def execAndn (o : ScalarReg) (s : State) : Host.Outcome State Fault Refusal :=
  .next (s.scalarReg o 1 (fun a b => a &&& ~~~b))
/-- andn, I = 1 (Table 9.1). -/
def execAndnImm (o : ScalarImm) (s : State) : Host.Outcome State Fault Refusal :=
  .next (s.scalarImm o 1 (fun a b => a &&& ~~~b))
/-- shl, I = 0 (Table 9.1). -/
def execShl (o : ScalarReg) (s : State) : Host.Outcome State Fault Refusal :=
  .next (s.scalarReg o 1 (fun a b => a <<< shiftAmount b))
/-- shl, I = 1 (Table 9.1). -/
def execShlImm (o : ScalarImm) (s : State) : Host.Outcome State Fault Refusal :=
  .next (s.scalarImm o 1 (fun a b => a <<< shiftAmount b))
/-- shr, I = 0 (Table 9.1). -/
def execShr (o : ScalarReg) (s : State) : Host.Outcome State Fault Refusal :=
  .next (s.scalarReg o 1 (fun a b => a >>> shiftAmount b))
/-- shr, I = 1 (Table 9.1). -/
def execShrImm (o : ScalarImm) (s : State) : Host.Outcome State Fault Refusal :=
  .next (s.scalarImm o 1 (fun a b => a >>> shiftAmount b))
/-- sar, I = 0 (Table 9.1). -/
def execSar (o : ScalarReg) (s : State) : Host.Outcome State Fault Refusal :=
  .next (s.scalarReg o 1 (fun a b => a.sshiftRight (shiftAmount b)))
/-- sar, I = 1 (Table 9.1). -/
def execSarImm (o : ScalarImm) (s : State) : Host.Outcome State Fault Refusal :=
  .next (s.scalarImm o 1 (fun a b => a.sshiftRight (shiftAmount b)))
/-- rol, I = 0 (Table 9.1). -/
def execRol (o : ScalarReg) (s : State) : Host.Outcome State Fault Refusal :=
  .next (s.scalarReg o 1 (fun a b => a.rotateLeft (shiftAmount b)))
/-- rol, I = 1 (Table 9.1). -/
def execRolImm (o : ScalarImm) (s : State) : Host.Outcome State Fault Refusal :=
  .next (s.scalarImm o 1 (fun a b => a.rotateLeft (shiftAmount b)))
/-- min, I = 0 (Table 9.1). -/
def execMin (o : ScalarReg) (s : State) : Host.Outcome State Fault Refusal :=
  .next (s.scalarReg o 1 (fun a b => if a.slt b then a else b))
/-- min, I = 1 (Table 9.1). -/
def execMinImm (o : ScalarImm) (s : State) : Host.Outcome State Fault Refusal :=
  .next (s.scalarImm o 1 (fun a b => if a.slt b then a else b))
/-- max, I = 0 (Table 9.1). -/
def execMax (o : ScalarReg) (s : State) : Host.Outcome State Fault Refusal :=
  .next (s.scalarReg o 1 (fun a b => if a.slt b then b else a))
/-- max, I = 1 (Table 9.1). -/
def execMaxImm (o : ScalarImm) (s : State) : Host.Outcome State Fault Refusal :=
  .next (s.scalarImm o 1 (fun a b => if a.slt b then b else a))
/-- minu, I = 0 (Table 9.1). -/
def execMinu (o : ScalarReg) (s : State) : Host.Outcome State Fault Refusal :=
  .next (s.scalarReg o 1 (fun a b => if a.ult b then a else b))
/-- minu, I = 1 (Table 9.1). -/
def execMinuImm (o : ScalarImm) (s : State) : Host.Outcome State Fault Refusal :=
  .next (s.scalarImm o 1 (fun a b => if a.ult b then a else b))
/-- maxu, I = 0 (Table 9.1). -/
def execMaxu (o : ScalarReg) (s : State) : Host.Outcome State Fault Refusal :=
  .next (s.scalarReg o 1 (fun a b => if a.ult b then b else a))
/-- maxu, I = 1 (Table 9.1). -/
def execMaxuImm (o : ScalarImm) (s : State) : Host.Outcome State Fault Refusal :=
  .next (s.scalarImm o 1 (fun a b => if a.ult b then b else a))
/-- seq, I = 0 (Table 9.1). -/
def execSeq (o : ScalarReg) (s : State) : Host.Outcome State Fault Refusal :=
  .next (s.scalarReg o 1 (fun a b => boolWord (a == b)))
/-- seq, I = 1 (Table 9.1). -/
def execSeqImm (o : ScalarImm) (s : State) : Host.Outcome State Fault Refusal :=
  .next (s.scalarImm o 1 (fun a b => boolWord (a == b)))
/-- sne, I = 0 (Table 9.1). -/
def execSne (o : ScalarReg) (s : State) : Host.Outcome State Fault Refusal :=
  .next (s.scalarReg o 1 (fun a b => boolWord (a != b)))
/-- sne, I = 1 (Table 9.1). -/
def execSneImm (o : ScalarImm) (s : State) : Host.Outcome State Fault Refusal :=
  .next (s.scalarImm o 1 (fun a b => boolWord (a != b)))
/-- slt, I = 0 (Table 9.1). -/
def execSlt (o : ScalarReg) (s : State) : Host.Outcome State Fault Refusal :=
  .next (s.scalarReg o 1 (fun a b => boolWord (a.slt b)))
/-- slt, I = 1 (Table 9.1). -/
def execSltImm (o : ScalarImm) (s : State) : Host.Outcome State Fault Refusal :=
  .next (s.scalarImm o 1 (fun a b => boolWord (a.slt b)))
/-- sltu, I = 0 (Table 9.1). -/
def execSltu (o : ScalarReg) (s : State) : Host.Outcome State Fault Refusal :=
  .next (s.scalarReg o 1 (fun a b => boolWord (a.ult b)))
/-- sltu, I = 1 (Table 9.1). -/
def execSltuImm (o : ScalarImm) (s : State) : Host.Outcome State Fault Refusal :=
  .next (s.scalarImm o 1 (fun a b => boolWord (a.ult b)))
/-- sle, I = 0 (Table 9.1). -/
def execSle (o : ScalarReg) (s : State) : Host.Outcome State Fault Refusal :=
  .next (s.scalarReg o 1 (fun a b => boolWord (a.sle b)))
/-- sle, I = 1 (Table 9.1). -/
def execSleImm (o : ScalarImm) (s : State) : Host.Outcome State Fault Refusal :=
  .next (s.scalarImm o 1 (fun a b => boolWord (a.sle b)))
/-- sleu, I = 0 (Table 9.1). -/
def execSleu (o : ScalarReg) (s : State) : Host.Outcome State Fault Refusal :=
  .next (s.scalarReg o 1 (fun a b => boolWord (a.ule b)))
/-- sleu, I = 1 (Table 9.1). -/
def execSleuImm (o : ScalarImm) (s : State) : Host.Outcome State Fault Refusal :=
  .next (s.scalarImm o 1 (fun a b => boolWord (a.ule b)))
/-- csel, I = 0 (Table 9.2). -/
def execCsel (o : ScalarSel) (s : State) : Host.Outcome State Fault Refusal :=
  .next (s.scalarSel o 1 (fun a b c => selectWord a b c))
/-- csel, I = 1: C is D (Table 9.2, R148). -/
def execCselImm (o : ScalarImm) (s : State) : Host.Outcome State Fault Refusal :=
  .next (s.scalarSelImm o 1 (fun a b c => selectWord a b c))
/-- bins, I = 0 (Table 9.2). -/
def execBins (o : ScalarSel) (s : State) : Host.Outcome State Fault Refusal :=
  .next (s.scalarSel o 1 (fun a b c => insertField a b c))
/-- bins, I = 1: C is D (Table 9.2, R148). -/
def execBinsImm (o : ScalarImm) (s : State) : Host.Outcome State Fault Refusal :=
  .next (s.scalarSelImm o 1 (fun a b c => insertField a b c))
/-- movi (Table 9.2). -/
def execMovi (o : ScalarConst) (s : State) : Host.Outcome State Fault Refusal :=
  .next (s.resultS o.d.toNat 1 (immValue o.imm))
/-- movk (Table 9.2): it reads its own destination. -/
def execMovk (o : ScalarConst) (s : State) : Host.Outcome State Fault Refusal :=
  .next (s.resultS o.d.toNat 1 (moveKeep (s.rS o.d) o.imm))
/-- clz (Table 9.2). -/
def execClz (o : ScalarUnary) (s : State) : Host.Outcome State Fault Refusal :=
  .next (s.scalarUnary o 1 leadingZeros)
/-- ctz (Table 9.2). -/
def execCtz (o : ScalarUnary) (s : State) : Host.Outcome State Fault Refusal :=
  .next (s.scalarUnary o 1 trailingZeros)
/-- popc (Table 9.2). -/
def execPopc (o : ScalarUnary) (s : State) : Host.Outcome State Fault Refusal :=
  .next (s.scalarUnary o 1 popCount)
/-- bext, I = 0 (Table 9.2). -/
def execBext (o : ScalarReg) (s : State) : Host.Outcome State Fault Refusal :=
  .next (s.scalarReg o 1 (fun a b => extractField a b))
/-- bext, I = 1 (Table 9.2). -/
def execBextImm (o : ScalarImm) (s : State) : Host.Outcome State Fault Refusal :=
  .next (s.scalarImm o 1 (fun a b => extractField a b))
/-- sext, I = 0 (Table 9.2). -/
def execSext (o : ScalarReg) (s : State) : Host.Outcome State Fault Refusal :=
  .next (s.scalarReg o 1 (fun a b => signExtendAt a b))
/-- sext, I = 1 (Table 9.2). -/
def execSextImm (o : ScalarImm) (s : State) : Host.Outcome State Fault Refusal :=
  .next (s.scalarImm o 1 (fun a b => signExtendAt a b))
/-- fadd of binary64 (Table 9.3). -/
def execFadd64 (o : ScalarReg) (s : State) : Host.Outcome State Fault Refusal :=
  .next (s.binary64Reg .fadd64 o 4)
/-- fsub of binary64 (Table 9.3). -/
def execFsub64 (o : ScalarReg) (s : State) : Host.Outcome State Fault Refusal :=
  .next (s.binary64Reg .fsub64 o 4)
/-- fmul of binary64 (Table 9.3). -/
def execFmul64 (o : ScalarReg) (s : State) : Host.Outcome State Fault Refusal :=
  .next (s.binary64Reg .fmul64 o 4)
/-- fdiv of binary64 (Table 9.3). -/
def execFdiv64 (o : ScalarReg) (s : State) : Host.Outcome State Fault Refusal :=
  .next (s.binary64Reg .fdiv64 o 20)
/-- fmin of binary64 (Table 9.3). -/
def execFmin64 (o : ScalarReg) (s : State) : Host.Outcome State Fault Refusal :=
  .next (s.binary64Reg .fmin64 o 4)
/-- fmax of binary64 (Table 9.3). -/
def execFmax64 (o : ScalarReg) (s : State) : Host.Outcome State Fault Refusal :=
  .next (s.binary64Reg .fmax64 o 4)
/-- feq of binary64 (Table 9.3). -/
def execFeq (o : ScalarReg) (s : State) : Host.Outcome State Fault Refusal :=
  .next (s.binary64Reg .feq o 4)
/-- flt of binary64 (Table 9.3). -/
def execFlt (o : ScalarReg) (s : State) : Host.Outcome State Fault Refusal :=
  .next (s.binary64Reg .flt o 4)
/-- fle of binary64 (Table 9.3). -/
def execFle (o : ScalarReg) (s : State) : Host.Outcome State Fault Refusal :=
  .next (s.binary64Reg .fle o 4)
/-- fcvtfi of binary64 (Table 9.3). -/
def execFcvtfi (o : ScalarUnary) (s : State) : Host.Outcome State Fault Refusal :=
  .next (s.binary64Unary .fcvtfi o 4)
/-- fcvtif of binary64 (Table 9.3). -/
def execFcvtif (o : ScalarUnary) (s : State) : Host.Outcome State Fault Refusal :=
  .next (s.binary64Unary .fcvtif o 4)
/-- fsqrt of binary64 (Table 9.3). -/
def execFsqrt64 (o : ScalarUnary) (s : State) : Host.Outcome State Fault Refusal :=
  .next (s.binary64Unary .fsqrt64 o 20)

/-! ## Reading state (R152, R153) -/

/-- The number of cycles since the loom's last reset. -/
def State.loomCycles (s : State) (l : Nat) : Nat := s.cycle - max s.epoch (s.loom l).resetCycle
/-- A system register (Table 9.5). A stream sequencer has no loom, so its per-loom registers read as zero (log 15). -/
def State.sysRegister (s : State) (n : BitVec 12) : DWord :=
  let l := s.loom s.cur.loom
  let onLoom := s.cur.stream.isNone
  match n.toNat with
  | 0x000 => s.me.fflags.zeroExtend 64
  | 0x001 => s.me.frm.zeroExtend 64
  | 0x002 => BitVec.ofNat 64 s.cur.step
  | 0x003 => s.me.prio.zeroExtend 64
  | 0x004 => (s.myRun.map (fun r => r.chunk)).getD 0#64
  | 0x005 => s.me.vclosed.zeroExtend 64
  | 0x010 => if onLoom then l.vxslip else 0#64
  | 0x011 => if onLoom then BitVec.ofNat 64 (s.loomCycles s.cur.loom % 8) else 0#64
  | 0x012 => if onLoom then BitVec.ofNat 64 (s.loomCycles s.cur.loom) else 0#64
  | 0x013 => if onLoom then (l.debugOf s.myTenancy).drift.zeroExtend 64 else 0#64
  | _ => 0#64
/-- The status word of a segment of the current launch (R58). -/
def State.segStatus (s : State) (b : DWord) : DWord :=
  match s.myRun with
  | some r => r.statusWord (b.toNat % 4096)
  | none => 0#64
/-- rdcnt: the loom's count of a counter of the tenancy, or its sticky bit; 0 for counters 26 to 31 (R153, R340). DESIGN CHOICE
(log 15): a stream program has no loom; it reads what the ports of its tenancy have counted. -/
def State.counterWord (s : State) (b : DWord) : DWord :=
  let k := b.toNat % 32
  let c := match s.cur.stream with
    | some t => Tab.get (s.tenancy t).ports k Counter.zero
    | none => (s.loom s.cur.loom).counter s.myTenancy k
  if 25 < k then 0#64 else if b.getLsbD 5 then boolWord c.sticky else c.value
/-- whoami (Table 9.6). -/
def State.whoami (s : State) (sel : BitVec 12) : DWord :=
  let l := s.cur.loom
  let dev : DWord := if s.domain.isSome then s.deviceNumber.zeroExtend 64 else 0#64
  match s.cur.stream with
  | some t => if sel.toNat = 4 then dev else if sel.toNat = 5 then BitVec.ofNat 64 t else 0#64
  | none =>
    match sel.toNat with
    | 0 => BitVec.ofNat 64 s.cur.seq
    | 1 => BitVec.ofNat 64 (placeOf l)
    | 2 => BitVec.ofNat 64 (clusterOf l % 20)
    | 3 => BitVec.ofNat 64 (stackOf l)
    | 4 => dev
    | 5 => BitVec.ofNat 64 s.myTenancy
    | 6 => BitVec.ofNat 64 ((s.myRun.map (fun r => r.rank)).getD 0)
    | 7 => BitVec.ofNat 64 ((s.myRun.map (fun r => r.loomset)).getD 0)
    | _ => 0#64

/-- rdsys (Table 9.5). -/
def execRdsys (o : ScalarNum) (s : State) : Host.Outcome State Fault Refusal :=
  .next (s.resultS o.d.toNat 2 (s.sysRegister o.num))
/-- wrsys: frm or vclosed, from the next step (Table 9.5). -/
def execWrsys (o : ScalarWrsys) (s : State) : Host.Outcome State Fault Refusal :=
  let x := (s.rS o.a).zeroExtend 1024
  .next (if o.num = 0x001#12 then s.result .frm 1 (BitVec.allOnes 1024) x
         else if o.num = 0x005#12 then s.result .vclosed 1 (BitVec.allOnes 1024) x else s)
/-- segq, I = 0 (R58, R59). -/
def execSegq (o : ScalarQuery) (s : State) : Host.Outcome State Fault Refusal :=
  .next (s.resultS o.d.toNat 2 (s.segStatus (s.rS o.b)))
/-- segq, I = 1. -/
def execSegqImm (o : ScalarConst) (s : State) : Host.Outcome State Fault Refusal :=
  .next (s.resultS o.d.toNat 2 (s.segStatus (immValue o.imm)))
/-- whoami (Table 9.6). -/
def execWhoami (o : ScalarNum) (s : State) : Host.Outcome State Fault Refusal :=
  .next (s.resultS o.d.toNat 2 (s.whoami o.num))
/-- rdcnt, I = 0 (R153). -/
def execRdcnt (o : ScalarQuery) (s : State) : Host.Outcome State Fault Refusal :=
  .next (s.resultS o.d.toNat 2 (s.counterWord (s.rS o.b)))
/-- rdcnt, I = 1. -/
def execRdcntImm (o : ScalarConst) (s : State) : Host.Outcome State Fault Refusal :=
  .next (s.resultS o.d.toNat 2 (s.counterWord (immValue o.imm)))
/-- lidx (Table 9.4, R153). -/
def execLidx (o : ScalarNum) (s : State) : Host.Outcome State Fault Refusal :=
  .next (s.resultS o.d.toNat 2 (((s.me.view (.li o.num.toNat)).extractLsb' 0 32).zeroExtend 64))
/-- rdtok (Table 9.4). -/
def execRdtok (o : ScalarDest) (s : State) : Host.Outcome State Fault Refusal :=
  .next (s.resultS o.d.toNat 2 (s.me.dtView.zeroExtend 64))
/-- rdtag (Table 9.4): ct as a slot reads it, after a tset of an earlier pick of its group too (R331). -/
def execRdtag (o : ScalarDest) (s : State) : Host.Outcome State Fault Refusal :=
  .next (s.resultS o.d.toNat 2 (((s.me.view .ct).extractLsb' 0 12).zeroExtend 64))

end Sys2Proof.Machine
end

