-- ==== Sys2Proof/Machine/Special.lean ====
section
/-!
DEFINITION. The special-function lane fn (R186, R187). A result is the exact mathematical value rounded once to the type
under RNE. A quotient or a root carries an exact sticky bit. A transcendental value is computed in fixed point with at
least 150 correct bits beyond any result's last place; it is never exact, so the sticky bit below it is set (log 17).
-/

namespace Sys2Proof.Machine

/-! ## Fixed-point series: a number is an integer over 2^prec -/

/-- Fraction bits of the fixed-point numbers. -/
def prec : Nat := 480
/-- One. -/
def fxOne : Int := 2 ^ 480
/-- The product of two fixed-point numbers. -/
def fxMul (a b : Int) : Int := (a * b) >>> prec
/-- The quotient. -/
def fxDiv (a b : Int) : Int := (a * fxOne) / b
/-- The sum of t · z^k / (2k + 1), n terms: atanh z = z · this at z², and arctan with a negative z. -/
def oddSeries (n : Nat) (t z : Int) (k : Nat) : Int :=
  match n with
  | 0 => 0
  | n + 1 => t / (2 * k + 1) + oddSeries n (fxMul t z) z (k + 1)
/-- 2 · atanh(a / b) for 0 ≤ a < b. -/
def twoAtanh (a b : Int) : Int := let z := fxDiv a b; 2 * fxMul z (oddSeries 170 fxOne (fxMul z z) 0)
/-- arctan(1 / n). -/
def arctanInv (n : Int) : Int := let z := fxOne / n; fxMul z (oddSeries 120 fxOne (-(fxMul z z)) 0)
/-- π, by Machin's formula. -/
def fxPi : Int := 16 * arctanInv 5 - 4 * arctanInv 239
/-- ln 2 = 2 · atanh(1/3). -/
def fxLn2 : Int := twoAtanh 1 3
/-- 1 + r + r²/2! + …, from the term t of index k, n terms more. -/
def expSeries (n : Nat) (t r : Int) (k : Nat) : Int :=
  match n with
  | 0 => 0
  | n + 1 => t + expSeries n (fxMul t r / (k + 1)) r (k + 1)
/-- e^r for |r| ≤ 1. -/
def fxExp (r : Int) : Int := expSeries 110 fxOne r 0
/-- t − t·z/(j(j+1)) + …: sine from j = 2, cosine from j = 1, with z = r². -/
def trigSeries (n : Nat) (t z : Int) (j : Int) : Int :=
  match n with
  | 0 => 0
  | n + 1 => t + trigSeries n (-(fxMul t z / (j * (j + 1)))) z (j + 2)
def fxSin (r : Int) : Int := trigSeries 60 r (fxMul r r) 2
def fxCos (r : Int) : Int := trigSeries 60 fxOne (fxMul r r) 1
/-- The sum of (−z)^k / (k! (2k + 1)): erf x = 2x/√π · this at x². -/
def erfSeries (n : Nat) (t z : Int) (k : Nat) : Int :=
  match n with
  | 0 => 0
  | n + 1 => t / (2 * k + 1) + erfSeries n (-(fxMul t z / (k + 1))) z (k + 1)
/-- √π. -/
def fxSqrtPi : Int := (isqrt 484 ((fxPi * fxOne).toNat) 0 : Nat)

/-! ## Values -/

/-- m · 2^x as a fixed-point number, truncated. -/
def toFixed (neg : Bool) (m : Nat) (x : Int) : Int :=
  let e := x + prec
  signed neg (if 0 ≤ e then m <<< e.toNat else m >>> (-e).toNat)
/-- A fixed-point value times 2^k that is never exact: a set bit below it. -/
def inexactValue (v : Int) (k : Int) : Exact := ⟨.fin (v < 0) (2 * v.natAbs + 1) (k - prec - 1), 0#5⟩
/-- A value just below m · 2^x in magnitude. -/
def justBelow (neg : Bool) (m : Nat) (x : Int) : Exact := ⟨.fin neg ((m <<< 64) - 1) (x - 64), 0#5⟩
/-- A value just above m · 2^x in magnitude. -/
def justAbove (neg : Bool) (m : Nat) (x : Int) : Exact := ⟨.fin neg ((m <<< 64) + 1) (x - 64), 0#5⟩
/-- An exact value. -/
def exactly (n : Num) : Exact := ⟨n, 0#5⟩
def exactOne : Exact := exactly (.fin false 1 0)
/-- The canonical NaN, raising invalid. -/
def invalidNaN : Exact := ⟨.nan false, flagInvalid⟩

/-- e^(t · ln 2) for a fixed-point t, as 2^k · e^r. -/
def expOfLog2 (t : Int) : Exact :=
  let k := (t + fxOne / 2) >>> prec
  inexactValue (fxExp (fxMul (t - k * fxOne) fxLn2)) k
/-- e^y for a fixed-point y. -/
def fxExpFull (y : Int) : Int × Int :=
  let k := (fxDiv y fxLn2 + fxOne / 2) >>> prec
  (fxExp (y - k * fxLn2), k)
/-- The natural logarithm of m · 2^x, m > 0. -/
def fxLog (m : Nat) (x : Int) : Int :=
  let l := Nat.log2 m
  let a : Int := (m : Int) - 2 ^ l
  twoAtanh a ((m : Int) + 2 ^ l) + ((l : Int) + x) * fxLn2
/-- sin or cos of m · 2^x: reduced by multiples of π/2, with the quadrant. -/
def trig (cosine neg : Bool) (m : Nat) (x : Int) : Exact :=
  let v := toFixed neg m x
  let h := fxPi / 2
  let q := (2 * v + h) / (2 * h)
  let r := v - q * h
  let quad := (q + (if cosine then 1 else 0)) % 4
  let y := if quad % 2 = 0 then fxSin r else fxCos r
  inexactValue (if quad < 2 then y else -y) 0

/-- The exact value of a special function of one or two numbers (Table 10.9). -/
def specialValue (m : Mnemonic) (f : Fmt) (a b : Num) : Exact :=
  match m with
  | .fnFdiv => a.div b f
  | .fnFsqrt => a.sqrt f
  | .frcp => (Num.fin false 1 0).div a f
  | _ =>
    match m, a with
    | _, .nan g => ⟨.nan false, flagIf g flagInvalid⟩
    | .frsqrt, .inf p => if p then invalidNaN else exactly (.fin false 0 0)
    | .frsqrt, .fin p k x =>
      if k = 0 then ⟨.inf p, flagDivZero⟩
      else if p then invalidNaN
      else
        -- 1/√(k·2^x) with x even: √(2^(2j)/k) · 2^(−x/2 − j)
        let (k, x) := if x % 2 = 0 then (k, x) else (2 * k, x - 1)
        let j := 2 * (f.mbits + 4) + Nat.log2 k
        let r := isqrt (j + 1) (2 ^ (2 * j) / k) 0
        ⟨.fin false (2 * r + (if r * r * k = 2 ^ (2 * j) then 0 else 1)) (-(x / 2) - j - 1), 0#5⟩
    | .fexp2, .inf p | .fexp, .inf p => if p then exactly (.fin false 0 0) else exactly (.inf false)
    | .fexp2, .fin p k x =>
      if k = 0 then exactOne
      else if 11 ≤ (Nat.log2 k : Int) + x then exactly (.fin false 3 (if p then -4096 else 4096))
      else
        let t := toFixed p k x
        let i := t >>> prec
        if x < -400 then (if p then justBelow false 1 0 else justAbove false 1 0)
        else if i * fxOne = t then exactly (.fin false 1 i) else expOfLog2 t
    | .fexp, .fin p k x =>
      if k = 0 then exactOne
      else if 10 ≤ (Nat.log2 k : Int) + x then exactly (.fin false 3 (if p then -4096 else 4096))
      else let e := fxExpFull (toFixed p k x); inexactValue e.1 e.2
    | .flog2, .inf p | .flog, .inf p => if p then invalidNaN else exactly (.inf false)
    | .flog2, .fin p k x =>
      if k = 0 then ⟨.inf true, flagDivZero⟩
      else if p then invalidNaN
      else if k = 2 ^ Nat.log2 k then exactly (Num.ofInt ((Nat.log2 k : Int) + x))
      else inexactValue (fxDiv (fxLog k x) fxLn2) 0
    | .flog, .fin p k x =>
      if k = 0 then ⟨.inf true, flagDivZero⟩
      else if p then invalidNaN
      else if k = 2 ^ Nat.log2 k && (Nat.log2 k : Int) + x = 0 then exactly (.fin false 0 0)
      else inexactValue (fxLog k x) 0
    | .fsin, .inf _ => invalidNaN
    | .fsin, .fin p k x =>
      if k = 0 then exactly (.fin p 0 0)
      else if (Nat.log2 k : Int) + x < -14 then justBelow p k x else trig false p k x
    | .fcos, .inf _ => invalidNaN
    | .fcos, .fin p k x => if k = 0 then exactOne else trig true p k x
    | .ftanh, .inf p => exactly (.fin p 1 0)
    | .ftanh, .fin p k x =>
      if k = 0 then exactly (.fin p 0 0)
      else if (Nat.log2 k : Int) + x < -14 then justBelow p k x
      else if 6 ≤ (Nat.log2 k : Int) + x then justBelow p 1 0
      else
        let e := fxExpFull (-(2 * toFixed false k x))
        let y := if e.2 ≤ 0 then e.1 >>> (-e.2).toNat else e.1
        let v := fxDiv (fxOne - y) (fxOne + y)
        inexactValue (if p then -v else v) 0
    | .fsigm, .inf p => if p then exactly (.fin false 0 0) else exactOne
    | .fsigm, .fin p k x =>
      if k = 0 then exactly (.fin false 1 (-1))
      else if 10 ≤ (Nat.log2 k : Int) + x then (if p then exactly (.fin false 3 (-4096)) else justBelow false 1 0)
      else
        let e := fxExpFull (-(toFixed false k x))
        let y := e.1 >>> (-e.2).toNat
        -- for x < 0: E/(1 + E) with E = e^x = e.1 · 2^e.2
        if p then inexactValue (fxDiv e.1 (fxOne + y)) e.2 else inexactValue (fxDiv fxOne (fxOne + y)) 0
    | .ferf, .inf p => exactly (.fin p 1 0)
    | .ferf, .fin p k x =>
      if k = 0 then exactly (.fin p 0 0)
      else if 3 ≤ (Nat.log2 k : Int) + x then justBelow p 1 0
      else
        -- k · 2^x · (2/√π) · F(x²), so that a small operand keeps its relative precision
        let v := toFixed false k x
        let c := fxDiv (2 * fxMul fxOne (erfSeries 400 fxOne (fxMul v v) 0)) fxSqrtPi
        ⟨.fin p (2 * (k * c.toNat) + 1) (x - prec - 1), 0#5⟩
    | _, _ => exactly a

/-- A special function of elements of a type, rounded once under RNE. -/
def specialElement (m : Mnemonic) (t x y : Nat) : Rounded :=
  let f := typeFmt t
  (specialValue m f (f.decode x) (f.decode y)).round f 0#2

/-! ## The slot -/

/-- Is element i active under a lent guard (R186)? -/
def State.lentActive (s : State) (g : Option LentGuard) (size i : Nat) : Bool :=
  match g with
  | none => true
  | some g => (s.rQ g.q.toNat).getLsbD (size / 8 * i) != g.neg
/-- A special function on each active element; counted in C11; every result lands 8 steps later. -/
def State.special (s : State) (m : Mnemonic) (o : FnOps) : State :=
  let t := o.t.toNat
  let size := typeSize t
  let n := 256 * 2 ^ o.w.toNat / size
  let a := s.readVec o.a.toNat
  let b := s.readVec o.b.toNat
  let e := elementsEffect size ((List.range n).map (fun i =>
    if s.lentActive o.guard size i then some (specialElement m t (elemAt a size i) (elemAt b size i)) else none))
  s.vecWrite o.d.toNat 8 e 11 ((List.range n).countP (s.lentActive o.guard size))
/-- Does an fn slot hold a hard case (R186)? Which operands are hard, of fdiv x and y, is not stated. -/
def State.fnReplays (s : State) (m : Mnemonic) (o : FnOps) : Bool :=
  let size := typeSize o.t.toNat
  let a := s.readVec o.a.toNat
  let b := s.readVec o.b.toNat
  (List.range (256 * 2 ^ o.w.toNat / size)).any (fun i =>
    s.lentActive o.guard size i &&
      Config.hardCase m.op.toNat o.t.toNat (elemAt a size i) (if m = .fnFdiv then elemAt b size i else 0))

/-- 1/x (Table 10.9). -/
def execFrcp (o : FnOps) (s : State) : Host.Outcome State Fault Refusal :=
  .next (s.special .frcp o)
/-- 1/√x (Table 10.9). -/
def execFrsqrt (o : FnOps) (s : State) : Host.Outcome State Fault Refusal :=
  .next (s.special .frsqrt o)
/-- √x (Table 10.9). -/
def execFnFsqrt (o : FnOps) (s : State) : Host.Outcome State Fault Refusal :=
  .next (s.special .fnFsqrt o)
/-- x/y (Table 10.9). -/
def execFnFdiv (o : FnOps) (s : State) : Host.Outcome State Fault Refusal :=
  .next (s.special .fnFdiv o)
/-- 2^x (Table 10.9). -/
def execFexp2 (o : FnOps) (s : State) : Host.Outcome State Fault Refusal :=
  .next (s.special .fexp2 o)
/-- log2 x (Table 10.9). -/
def execFlog2 (o : FnOps) (s : State) : Host.Outcome State Fault Refusal :=
  .next (s.special .flog2 o)
/-- e^x (Table 10.9). -/
def execFexp (o : FnOps) (s : State) : Host.Outcome State Fault Refusal :=
  .next (s.special .fexp o)
/-- ln x (Table 10.9). -/
def execFlog (o : FnOps) (s : State) : Host.Outcome State Fault Refusal :=
  .next (s.special .flog o)
/-- sin x (Table 10.9). -/
def execFsin (o : FnOps) (s : State) : Host.Outcome State Fault Refusal :=
  .next (s.special .fsin o)
/-- cos x (Table 10.9). -/
def execFcos (o : FnOps) (s : State) : Host.Outcome State Fault Refusal :=
  .next (s.special .fcos o)
/-- tanh x (Table 10.9). -/
def execFtanh (o : FnOps) (s : State) : Host.Outcome State Fault Refusal :=
  .next (s.special .ftanh o)
/-- 1/(1 + e^−x) (Table 10.9). -/
def execFsigm (o : FnOps) (s : State) : Host.Outcome State Fault Refusal :=
  .next (s.special .fsigm o)
/-- erf x (Table 10.9). -/
def execFerf (o : FnOps) (s : State) : Host.Outcome State Fault Refusal :=
  .next (s.special .ferf o)

end Sys2Proof.Machine
end

