-- ==== Sys2Proof/Machine/Stall.lean ====
section
/-!
DEFINITION. What keeps a pick from issuing (Table 2.3): the segments that its slots name (R53, R56, R309, R388), bank
conflicts (R193), full queues and busy tiles (R211, R218), unset tokens, tags, replays (R100, R186), late sums (R222) and
the vault controller's refresh (R373).
-/

namespace Sys2Proof.Machine

/-! ## The accesses of a slot -/

/-- Bytes of one access of a memory slot (R194 to R209), but for vld and vst. -/
def accessSize (m : Mnemonic) : Nat :=
  match m with
  | .lb | .lbu | .sb => 1
  | .lh | .lhu | .sh => 2
  | .lw | .lwu | .sw => 4
  | .ld | .sd | .ldx | .lacq | .srel | .aadd64 | .axch64 | .acas64 => 8
  | .lvW256 | .svW256 => 32
  | .lvW512 | .svW512 => 64
  | .lvW1024 | .svW1024 | .lvg | .svg | .lvx | .vldr | .vstr => 128
  | .lfd | .sfd => 8
  | .aadd | .afadd | .amin | .amax | .aminu | .amaxu | .aand | .aor | .axor | .axch | .acas => 4
  | .binit | .bbind | .btx => 16
  | _ => 0
/-- Bytes by which a held slot's hidden offset advances after an execution (R34). -/
def slotAdvance (x : Slot) (offset : Nat) : Nat :=
  match x.o with
  | .vaultCol o => vaultMoves o offset
  | _ => accessSize x.m
/-- Segment forms that only read. -/
def readForms : List Mnemonic :=
  [.lb, .lbu, .lh, .lhu, .lw, .lwu, .ld, .lvW256, .lvW512, .lvW1024]
/-- The segment access of a memory slot that stands at `cur`. -/
def State.slotAccess (s : State) (x : Slot) : Option Access :=
  let n := accessSize x.m
  match x.o with
  | .memSeg o =>
    match x.m with
    | .lvg => some (gatherAccess o.seg.toNat s.rTag (elementOffsets (s.rV o.e.toNat) (s.segOffset o.o o.imm6 4)) false)
    | .svg => some (gatherAccess o.seg.toNat s.rTag (elementOffsets (s.rV (o.e.toNat + 1)) (s.segOffset o.o o.imm6 4)) true)
    | .binit | .btx => some (objectAccess o.seg.toNat (s.segOffset o.o o.imm6 16))
    | .bbind => none
    | m => some { seg := o.seg.toNat, tag := s.rTag, offs := [s.segOffset o.o o.imm6 n], size := n, align := n,
                  write := !readForms.contains m }
  | .memCross o => some { seg := o.seg.toNat, tag := s.crossTag o, offs := [s.segOffset o.o 0#6 n], size := n, align := n,
                          write := false }
  | .memAcq o => some { seg := o.seg.toNat, tag := s.rTag, offs := [s.segOffset o.o 0#6 n], size := n, align := n,
                        write := x.m == .srel }
  | _ => none
/-- The granules of the scratchpad in which the lines of an access lie (R42): a write under a tag goes to the overlay that it
materialises. -/
def LoomRun.granules (r : LoomRun) (a : Access) : List Nat :=
  match Tab.find? r.segs a.seg with
  | none => []
  | some g =>
    a.lines.filterMap (fun k =>
      match (if g.tagOf a.tag = 0 then none else if a.write then r.overlay a.seg a.tag k else r.shown a.seg a.tag k) with
      | some o => some o.home
      | none => if g.state.holds then some (g.home + k) else none)
/-- The slot that stands at `cur`. -/
def State.atSlot (s : State) (t : Todo) : State :=
  { s with cur := { s.cur with lane := t.lane, held := t.held, count := t.count, offset := t.offset } }

/-! ## What a slot asks of the Spindles -/

/-- The object bound to a barrier slot, as a need on its owner (R388). -/
def State.objectNeed (s : State) (bar : BitVec 8) (write : Bool) : OwnedNeeds :=
  match s.binding bar.toNat with
  | some r => [(r.loom, [.segment r.seg write])]
  | none => []
/-- What the slice 0 of a scaled command needs; `p` is the state in which its slot has been probed (R222). -/
def State.sliceNeeds (s p : State) (x : Slot) : OwnedNeeds :=
  match x.o, (p.loom s.cur.loom).queues.matrix with
  | .mx _, [c] => if c.scaled.isSome then (s.scaledReach s.cur.loom c).flatMap (fun r => s.reachNeeds c.launch r) else []
  | _, _ => []
/-- Is a slot a compare-and-swap that writes nothing, so that it needs what a read needs (R45, R198)? -/
def State.readsAlone (s : State) (x : Slot) : Bool :=
  match x.m, x.o with
  | .acas, .memSeg o => (s.atomicWrite .acas o 4).isNone
  | .acas64, .memSeg o => (s.atomicWrite .acas64 o 8).isNone
  | _, _ => false
/-- What one slot needs to be resident before its pick issues. -/
def State.slotNeeds (s : State) (x : Slot) : OwnedNeeds :=
  let l := s.cur.loom
  match x.o with
  | .waitOn bar _ _ _ => s.objectNeed bar false
  | .arriveImm bar _ => s.objectNeed bar true
  | .arriveReg bar _ => s.objectNeed bar true
  | .arrivewImm bar _ _ => s.objectNeed bar true
  | .arrivewReg bar _ _ => s.objectNeed bar true
  | .zs o =>
    if x.m = .zld then
      let one := fun (d : DWord) (n : Nat) =>
        s.reachNeeds s.me.launch (.seg (ownerOf l d) (descSeg d) s.rTag ((List.range n).map (fun i => descOff d + i)) 1 1 false)
      one (s.rS o.ra) (shapeM s.shapeNow) ++ one (s.rS o.rb) (shapeN s.shapeNow)
    else []
  | _ =>
    match s.slotAccess x, s.myRun with
    | some a, some r => [(l, r.needsOf { a with write := a.write && !s.readsAlone x })]
    | _, _ => []

/-! ## Where a slot stands -/

/-- Where a slot stands before its pick issues. -/
inductive Stand where
  | goes
  | faults            -- it stops its pick where it issues
  | frozen (cause : Nat)
  | waits (w : Wait)
deriving DecidableEq, Repr
/-- What a meaning answers, as a state. -/
def stateOf (o : Host.Outcome State Fault Refusal) (d : State) : State :=
  match o with
  | .next s => s
  | _ => d
/-- The standing that a trial of a slot shows. -/
def State.standing (after : State) (cause : Nat) : Stand :=
  match after.me.status with
  | .waiting w => .waits w
  | .stopped _ => .faults
  | .dormant => .faults
  | .ready => if after.issue.isNone then .frozen cause else .goes
/-- sh mnemonics that read s[RN + 1]. -/
def thirdForms : List Mnemonic := [.mcast, .reduce, .post, .gthr, .sctr, .copyb]
/-- The row of Table 2.3 under which an mx slot is held. -/
def State.mxCause (s : State) (x : Slot) (o : MxOps) : Nat :=
  let product := x.m = .mma || x.m = .mmag || x.m = .mmaw || x.m = .mmaz
  if (x.m = .mmaz || !product) && s.tileBusyNow o.ac.toNat then 10
  else if product && s.scaledPick o.ac.toNat then 16
  else 17
/-- Try a slot that may hold its pick back, or stop it. -/
def State.tryOut (s : State) (x : Slot) : Stand × State :=
  let run := fun (o : Host.Outcome State Fault Refusal) (cause : Nat) => ((stateOf o s).standing cause, stateOf o s)
  let same := fun (t : State) (cause : Nat) => (t.standing cause, t)
  let refreshing := fun (b : Nat) => s.me.banks.getLsbD b && ((s.loom s.cur.loom).bank b).refreshEnds.isSome
  match x.m, x.o with
  | .mshape, .mx o => run (execMshape o s) 17
  | .mwin, .mx o => run (execMwin o s) 17
  | m, .mx o =>
    if m = .mma || m = .mmaz || m = .mmag || m = .mmaw then same (s.product m o) (s.mxCause x o)
    else same (s.tileCommand m o) (s.mxCause x o)
  | m, .sh o => same (s.shuttle m o (thirdForms.contains m)) 17
  | .jcfg, .jq o => run (execJcfg o s) 17
  | m, .jq o => same (s.jacquardAbd m o) 17
  | .dtwait, .tokenMask mask => run (execDtwait mask s) 3
  | .taga, .reg d => run (execTaga d s) 14
  | .loopq, .loopQueue q len => run (execLoopq q len s) 18
  | .cqfill, .cqfill q seg o cnt => run (execCqfill q seg o cnt s) 17
  | .binit, .memSeg o => run (execBinit o s) 0
  | .btx, .memSeg o => (if (s.objectFault o.seg.toNat (s.segOffset o.o o.imm6 16)).isSome then .faults else .goes, s)
  | .bbind, .memSeg o => run (execBbind o s) 0
  | .vact, .vaultRow o => if refreshing o.bank.toNat then (.frozen 19, s) else run (execVact o s) 0
  | .vpre, .vaultRow o => if refreshing o.bank.toNat then (.frozen 19, s) else run (execVpre o s) 0
  | .vref, .vaultRef o => if refreshing o.bank.toNat then (.frozen 19, s) else run (execVref o s) 0
  | .vld, .vaultCol o => if refreshing o.bank.toNat then (.frozen 19, s) else run (execVld o s) 0
  | .vst, .vaultCol o => if refreshing o.bank.toNat then (.frozen 19, s) else run (execVst o s) 0
  | .vldr, .memFar o => run (execVldr o s) 0
  | .vstr, .memFar o => run (execVstr o s) 0
  | .lfd, .memFar o => run (execLfd o s) 0
  | .sfd, .memFar o => run (execSfd o s) 0
  | .zld, .zs o =>
    let one := fun (d : DWord) (n : Nat) =>
      s.reachFault s.cur.loom s.me.launch s.myTenancy (.seg (ownerOf s.cur.loom d) (descSeg d) s.rTag
        ((List.range n).map (fun i => descOff d + i)) 1 1 false)
    if (one (s.rS o.ra) (shapeM s.shapeNow)).isSome || (one (s.rS o.rb) (shapeN s.shapeNow)).isSome then (.faults, s)
    else (.goes, s)
  | _, _ =>
    match s.slotAccess x with
    | some a => if (s.myFault a).isSome then (.faults, s) else (.goes, s)
    | none => (.goes, s)

/-- What the slots of a pick ask for: their own needs by owner, those of the slice 0 that is to begin with the pick, and the granules of
their lines by lane. -/
structure Asked where
  needs : OwnedNeeds
  slice : OwnedNeeds
  lines : List (Nat × Nat)
deriving DecidableEq, Repr
/-- Go through the slots in lane order, each tried in the state that those below it leave. The first that would stop the
pick, or holds it back, ends the search. -/
def State.search (s : State) (ts : List Todo) (p : State) (acc : Asked) : Stand × State × Asked :=
  match ts with
  | [] => (.goes, p, acc)
  | t :: rest =>
    match readSlot t.lane t.word t.lent with
    | none => State.search s rest p acc
    | some x =>
      let s1 := s.atSlot t
      match (p.atSlot t).tryOut x with
      | (.goes, p1) =>
        let lines := match s1.slotAccess x, s1.myRun with
          | some a, some r => (r.granules a).map (fun g => (t.lane.index, g))
          | _, _ => []
        let p2 := match s1.slotAccess x with
          | some a => p1.counting s.cur.loom s.me.launch a
          | none => p1
        State.search s rest p2 
           { needs := acc.needs ++ s1.slotNeeds x, slice := acc.slice ++ s1.sliceNeeds p1 x, lines := acc.lines ++ lines }
      | (st, p1) => (st, p1, acc)

/-! ## Bank conflicts (R193) -/

/-- Services that each bank owes to the lines of a pick. -/
def services (lines : List (Nat × Nat)) (bank : Nat) : Nat :=
  ((lines.map (·.2)).eraseDups.filter (fun g => g % 32 = bank)).length
/-- The most services of one bank. -/
def degree (lines : List (Nat × Nat)) : Nat := (List.range 32).foldl (fun m b => max m (services lines b)) 0
/-- Banks that need more than one service, as a vector. -/
def bankVector (lines : List (Nat × Nat)) : Nat :=
  (List.range 32).foldl (fun v b => if 1 < services lines b then v + 2 ^ b else v) 0
/-- The current sequencer is frozen for one cycle by a bank conflict; with DBGCTL bit 0 set it writes a record (R300). -/
def State.conflict (s : State) (k : Nat) (lines : List (Nat × Nat)) : State :=
  let x := s.me
  let left := if x.conflictLeft = 0 then k - 2 else x.conflictLeft - 1
  let s1 := s.updMe (fun q => { q with conflictLeft := left, conflictPaid := left = 0 })
  let lane := if lines.any (fun p => p.1 = 7 && 1 < services lines (p.2 % 32)) then 7 else 8
  if ((s.loom s.cur.loom).debugOf s.myTenancy).ctl.getLsbD 0 then
    s1.updLoom s.cur.loom (fun l =>
      l.addTrace (traceRecord 3 s.cur.seq lane k s.cur.pick (bankVector lines) s.cur.step))
  else s1

/-! ## Replays (R100, R186) -/

/-- Does a slot meet the subnormal range, or a hard case? An so slot never does: R100 excepts no slot but fn by name and R188 gives its
order no subnormal of its own, so whether its compare-exchange of a subnormal key is a comparison that replays is open (DESIGN CHOICE,
log 66). -/
def State.slotReplays (s : State) (x : Slot) : Bool :=
  match x.o with
  | .vec o => s.vecReplays x.m o
  | .fn o => s.fnReplays x.m o
  | .scalarReg o => (binary64Result x.m s.me.frm (s.rS o.a) (s.rS o.b)).tiny
  | .scalarUnary o => (binary64Result x.m s.me.frm (s.rS o.a) 0#64).tiny
  | _ => false
/-- Does any slot of a list replay? -/
def State.replays (s : State) (ts : List Todo) : Bool :=
  ts.any (fun t => match readSlot t.lane t.word t.lent with
    | some x => (s.atSlot t).slotReplays x
    | none => false)

/-! ## The stalls of a pick -/

/-- What assessing a sequencer finds. -/
inductive Verdict where
  | out                  -- it takes no part in this cycle's merge
  | frozen (cause : Nat)
  | ready (r : Ready)
deriving DecidableEq, Repr
/-- The pick in progress that a ready pick becomes. -/
def Ready.issue (r : Ready) (a : Issuer) : Issue :=
  { agent := a, seq := r.seq, pick := r.pick, bytes := r.bytes, stop := r.stop, present := r.present, done := r.done
    todo := r.issuing, cut := r.cut, writes := [], link := false, control := .fallThrough, rep := r.rep, index := r.index
    resumed := r.resumed, trapCode := none, halt := false, yields := false, after := none, zadd := r.zadd, scaled := r.scaled
    vaultBank := r.bank, bound := r.bound }
/-- The current sequencer leaves the ready set before its pick issues: a scaled command of it is orphaned (R359). -/
def State.leaves (s p : State) (w : Wait) : State :=
  let s1 := match w with
    | .tag _ => { s with allocators := p.allocators }
    | _ => s
  let s2 := s1.updMe (fun q => { q with status := .waiting w })
  if s.cur.stream.isSome then s2 else s2.orphan s.cur.loom s.cur.seq
/-- The row under which a request that is not granted holds its pick: that of its first need that is not met, else the one given. -/
def State.requestCause (s : State) (id : Nat) (ns : OwnedNeeds) (other : Nat) : Nat :=
  (ns.findSome? (fun p =>
    match (s.loom p.1).run id with
    | some r => (p.2.find? (fun n => !r.needMet n)).map r.needCause
    | none => none)).getD other
/-- Ask for the needs of a pick, with the stamp of the cycle at which it first found one absent (R56). What the slice 0 of its scaled
command needs is asked for with them; a pick that has its own waits as for a command that cannot begin (Table 2.3; DEDUCED, log 62). -/
def State.askNeeds (s : State) (ns slice : OwnedNeeds) : Option Nat × State :=
  let all := gatherNeeds (ns ++ slice)
  if all = [] then (none, s)
  else
    let id := s.me.launch
    match s.request s.cur.loom s.cur.seq id (s.me.pendingSince.getD s.cycle) all with
    | (true, s1) => (none, s1)
    | (false, s1) =>
      (some (s.requestCause id ns (if slice = [] then 9 else 16)),
       s1.updMe (fun q => { q with pendingSince := some (q.pendingSince.getD s.cycle) }))
/-- The current sequencer's request waits no longer: its pick issues, or it stops. -/
def State.withdrawMe (s : State) : State :=
  match s.me.pendingSince with
  | some x => s.withdrawOf s.cur.loom s.cur.seq x
  | none => s
/-- The current sequencer's pick is held by something else than its segments: what has been granted to it is pinned no longer, and it
keeps its stamp. DESIGN CHOICE (log 62): the pins of a pick begin with its issue (R53), so that a pick that waits for an engine's place
cannot keep from it the space that it needs. -/
def State.releaseMe (s : State) : State :=
  match s.me.pendingSince with
  | some x => (loomsOf (clusterOf s.cur.loom)).foldl (fun s o =>
      let mine := fun (y : Waiter) => y.granted && y.loom = s.cur.loom && y.agent = s.cur.seq && y.stamp = x
      if (s.loom o).waiters.any mine then s.updLoom o (fun l => l.dropWaiters mine) else s) s
  | none => s
/-- Can slice 0 of the scaled command of the current pick be granted in this cycle, which is its stamp (R56, R222)? -/
def State.sliceGranted (s : State) (slice : OwnedNeeds) : Bool :=
  let s1 := s.withdrawMe
  (gatherNeeds slice).all (fun p => (s1.loom p.1).grants
    { stamp := s.cycle, loom := s.cur.loom, agent := engineAgent .matrix, launch := s.me.launch, needs := p.2, granted := false })
/-- A replay of the current pick begins, or goes on. -/
def State.replay (s : State) : State :=
  if s.me.replaying.isSome then s
  else
    let (e, s1) := s.endOf .replay
    s1.updMe (fun q => { q with replaying := some e })
/-- The stalls of the current sequencer's next pick, in the order tried: its slots in lane order, its segments, a late sum,
its banks, its replay. Where several hold one pick in a cycle, the row of Table 2.3 that its trace names is the first of these: R21 and
R300 are silent on it (DESIGN CHOICE, log 79). -/
def State.stalls (s : State) (a : Issuer) (r : Ready) : Verdict × State :=
  match s.search r.issuing { s with issue := some (r.issue a) } { needs := [], slice := [], lines := [] } with
  | (.waits w, p, _) => (.out, s.withdrawMe.leaves p w)
  | (.frozen c, _, _) => (.frozen c, s.releaseMe)
  | (_, _, asked) =>
    match s.askNeeds asked.needs asked.slice with
    | (some c, s1) => (.frozen c, s1)
    | (none, s1) =>
      if !s1.sliceGranted asked.slice then (.frozen 16, s1.releaseMe)
      else if s.cur.stream.isNone && (s1.loom s.cur.loom).sumLate s.cur.seq s.cur.step then (.frozen 16, s1.releaseMe)
      else if 1 < degree asked.lines && !s.me.conflictPaid then (.frozen 6, s1.conflict (degree asked.lines) asked.lines)
      else if !s.me.replayed && s1.replays r.issuing then (.frozen 8, s1.replay)
      else (.ready { r with needs := gatherNeeds (asked.needs ++ asked.slice), banks := (asked.lines.map (fun p => p.2 % 32)).eraseDups }, s1)

/-- SUBNORMAL_REPLAY: the replay of a sequencer's next pick is complete, and the pick issues. A stream sequencer stands at
loom number 1280 + tenancy. -/
def execSubnormalReplay (loom seq : Nat) (s : State) : Host.Outcome State Fault Refusal :=
  if 1344 ≤ loom || 8 ≤ seq then .fault .noSuchAgent
  else
    let f := fun (q : Seq) => if q.replaying.isSome then { q with replaying := none, replayed := true } else q
    .next (if loom < 1280 then s.updSeq loom seq f
      else s.updTenancy (loom - 1280) (fun t => { t with stream := f t.stream }))

end Sys2Proof.Machine
end

