-- ==== Sys2Proof/Machine/Issue.lean ====
section
/-!
DEFINITION. The merge stage and the issue of a pick (R21 to R40, R192, R314, R320, R332, R342, R408): PICK_ISSUE chooses the
primary of a loom's cycle, then the second pick of its group or a secondary, and sets the slots of the chosen pick going;
when the last of them has issued, the pick ends, and the sequencer stands before its next.
-/

namespace Sys2Proof.Machine

/-! ## The current sequencer (R16, R22, R40) -/

/-- Number of an agent in the order of a cycle's turns (R156). -/
def issuerNumber (a : Issuer) : Nat :=
  match a with
  | .loom l => l
  | .stream t => streamPort t
/-- Turn to a sequencer: its next pick, or the pick that a resume takes up again. -/
def State.turnTo (s : State) (a : Issuer) (q : Nat) : State :=
  let c : Cur := match a with
    | .loom l => { Cur.none with loom := l, seq := q }
    | .stream t => { Cur.none with loom := streamPort t, stream := some t }
  let s1 := { s with cur := c }
  let x := s1.me
  let at_ := match x.resuming with
    | some st => { c with step := st.step, pick := st.pick }
    | none => { c with step := x.steps, pick := x.pc.toNat }
  { s with cur := at_ }
/-- Is a switch requested, so that sequencers come to their switch points? -/
def Loom.switchRequested (l : Loom) : Bool :=
  match l.switching with
  | some w => w.restoresAt.isNone
  | none => false
/-- Has a sequencer of a loom reached its switch point? -/
def Loom.atSwitch (l : Loom) (q : Nat) : Bool :=
  match l.switching with
  | some w => w.restoresAt.isSome || w.reached.contains q
  | none => false
/-- May the current sequencer issue in this cycle, stalls apart? -/
def State.mayIssue (s : State) : Bool :=
  let x := s.me
  x.status = .ready && x.eligibleFrom ≤ s.cycle && match s.cur.stream with
  | some t => (s.tenancy t).streamState ≠ 0 && (s.tenancy t).streamState ≠ 3
  | none =>
    let l := s.loom s.cur.loom
    match s.myRun with
    | none => false
    | some r => l.holder = some r.tenancy && !r.suspended && !l.contained && !l.quarantined && !l.offline &&
        !l.atSwitch s.cur.seq

/-! ## Landing (R25 to R27, R316) -/

/-- The results due at the current sequencer's step, in landing order. -/
def State.dueResults (s : State) : List Landing :=
  sortBy (fun (a b : Landing) => a.step ≤ b.step) (s.me.flight.filter (fun l => l.step ≤ s.me.steps))
/-- Deliver them, counting what counts when it lands (R185). -/
def State.landMe (s : State) : State :=
  s.dueResults.foldl (fun s l => match l.dest with
    | .count k => s.countMe k l.value.toNat
    | _ => s) (s.updMe Seq.land)
/-- The first due result that returned an error. -/
def failedResult (ls : List Landing) : Option (Landing × LandingError) :=
  ls.findSome? (fun l => match l.data with
    | .failed e => some (l, e)
    | _ => none)
/-- The first due result whose data has not returned. -/
def awaitedResult (ls : List Landing) : Option Nat :=
  ls.findSome? (fun l => match l.data with
    | .awaited id => some id
    | _ => none)
/-- Is the data of a due result held back by a fence (R201)? -/
def Landing.late (l : Landing) : Bool :=
  match l.data with
  | .after _ => true
  | _ => false
/-- Data that a fence held back is there from its cycle on. -/
def Seq.ripen (q : Seq) (cycle : Nat) : Seq :=
  { q with flight := q.flight.map (fun l =>
      match l.data with
      | .after c => if c ≤ cycle then { l with data := .yes } else l
      | _ => l) }
/-- The row of Table 2.3 for late data: a class-0 far load, or any other. -/
def State.lateCause (s : State) (id : Nat) : Nat :=
  match Tab.find? s.farReads id with
  | some r => if r.promise = 0 then 11 else 15
  | none => 15

/-! ## Assessing a sequencer's next pick (R326, R343, R376) -/

/-- Does the fetch of a stream's pick meet an error of its target, or return poison (0xA02, R371, R377)? -/
def State.fetchFails (s : State) (n : Nat) : Bool × State :=
  match s.cur.stream with
  | none => (false, s)
  | some t =>
    let d := BitVec.ofNat 64 s.cur.pick
    let e := s.window t (farWindow d)
    let a := winTarget e (farOffset d)
    match s.farAnswer (winKind e) a false with
    | (some _, s1) => (true, s1)
    | (none, s1) =>
      let c := s1.checkFar (stackOf s.cur.loom) (winKind e) (winPeer e) (s.keyOf e) (linesOf a n)
      (c.1.isSome, c.2)
/-- The checks of the pick, then its stalls. -/
def State.assessPick (s : State) (a : Issuer) : Verdict × State :=
  match s.pickWords s.cur.pick with
  | none => (.out, s.stopPick (if s.cur.stream.isSome then 0x406 else 0x202))
  | some ws =>
    match s.fetchFails (4 * ws.length) with
    | (true, s) => (.out, s.stopPick 0xA02)
    | (false, s) =>
      match pickFault ws with
      | some c => (.out, s.stopPick c)
      | none => s.stalls a (s.readyPick ws)
/-- Assess one sequencer of an agent for this cycle's merge. -/
def State.assess (s : State) (a : Issuer) (q : Nat) : Verdict × State :=
  let s := s.turnTo a q
  let x := s.me
  if !s.mayIssue then (.out, s)
  else if x.resuming.isSome then s.assessPick a
  else if x.stopNext then (.out, s.withdrawMe.updMe Seq.stopBefore)
  else if s.cur.stream.isNone && (s.loom s.cur.loom).switchRequested && x.atBoundary then
    (.out, s.withdrawMe.updLoom s.cur.loom (fun l => l.reach q false))
  else
    let s := if x.flight.any Landing.late then s.updMe (fun q => q.ripen s.cycle) else s
    let due := s.dueResults
    match failedResult due, awaitedResult due with
    | some (l, e), _ => (.out, s.stopLanding l e)
    | none, some id => (.frozen (s.lateCause id), s.releaseMe)
    | none, none => if due.any Landing.late then (.frozen 15, s.releaseMe) else s.landMe.assessPick a

/-! ## Lane groups and vertical exclusion (R31, R32) -/

/-- The lowest-numbered free aligned run of a size. -/
def placeClaim (used : List (Nat × Nat)) (size : Nat) : Nat :=
  ((List.range 8).find? (fun g => g % size = 0 && used.all (fun u => g + size ≤ u.1 || u.1 + u.2 ≤ g))).getD 0
/-- Place claims, the largest first. -/
def placeClaims (used : List (Nat × Nat)) (cs : List Claim) : List (Nat × Claim) :=
  (sortBy (fun (a b : Claim) => b.size ≤ a.size) cs).foldl (fun acc c =>
    acc ++ [(placeClaim (used ++ acc.map (fun p => (p.1, p.2.size))) c.size, c)]) []
/-- Quadrants that form products at full rate: the first chunk of an mmag reads its count word, and forms none, but for a scaled
one. -/
def Loom.fullQuadrants (l : Loom) : List Nat :=
  match l.queues.matrix with
  | c :: _ =>
    if c.chunk.isSome && (c.begun || c.startsSlice) && c.isProduct && fullRate c.fa c.fb then (List.range 4).filter (fun k => 32 * k < c.rows) else []
  | [] => []
/-- Does a ready pick put a heavy slot above such a quadrant, beside the claims of the picks that have issued? DESIGN CHOICE
(log 35): the primary's slots are placed before the secondary's, each pick's the largest first, and of equal ones a present
slot before a held one, in lane order. -/
def State.excluded (s : State) (r : Ready) : Bool :=
  let sizes := s.turn.sizes.map (fun n => ({ size := n, heavy := false } : Claim))
  let used := (placeClaims [] sizes).map (fun p => (p.1, p.2.size))
  s.cur.stream.isNone && (placeClaims used r.claims).any (fun p => p.2.heavy &&
    (s.loom s.cur.loom).fullQuadrants.any (fun k => p.1 < 2 * k + 2 && 2 * k < p.1 + p.2.size))
/-- One more slip or stretch. -/
def State.countSlip (s : State) : State :=
  s.updLoom s.cur.loom (fun l => { l with vxslip := l.vxslip + 1#64 })
/-- The pick slips: it does not issue in this cycle, and issues when it is next chosen. -/
def State.slip (s : State) : State := (s.updMe (fun q => { q with slipped := true })).countSlip
/-- A pick that has slipped issues: the quadrants beneath it form no products for this cycle. -/
def State.stretch (s : State) : State :=
  (s.updCmd s.cur.loom .matrix 0 (fun c =>
    { c with chunk := c.chunk.map (fun k => { k with endsAt := k.endsAt + 1 }) })).countSlip

/-! ## Interlock traces (R300, R301) -/

/-- A run of frozen cycles ends, with its record. -/
def State.endRun (s : State) (l q : Nat) : State := s.updLoom l (fun x => x.endRun q)
/-- One more frozen cycle of a sequencer under a cause. -/
def State.freezeCycle (s : State) (l q cause : Nat) : State :=
  let x := s.seq l q
  if cause = 0 then s.endRun l q
  else if x.frozenCause = cause then s.updSeq l q (fun x => { x with frozenRun := x.frozenRun + 1 })
  else (s.endRun l q).updSeq l q (fun x => { x with frozenCause := cause, frozenRun := 1 })
/-- Account for this cycle's freezes of the traced sequencers of a loom. One that an event re-inserts in this cycle is still
frozen for what it waited for (R22). -/
def State.accountFreezes (s : State) (l : Nat) : State :=
  (s.loom l).seqs.foldl (fun s p =>
    if !p.2.tracing || p.2.status = .dormant then s
    else if s.turn.issued.contains p.1 then s
    else
      let away := (s.seq l p.1).awayCause
      let cause := if away ≠ 0 then away else if s.cycle < p.2.eligibleFrom then p.2.frozenCause
        else Tab.get s.turn.causes p.1 0
      s.freezeCycle l p.1 cause) s

/-! ## Loops and transfers (R35 to R38, R154, R332, R346, R408) -/

/-- The end tests at a body's last pick, innermost first: the next pick, the stack and the iteration numbers. -/
def endTests (loops : List LoopEntry) (li : Tab Word) (last fall : Nat) : Nat × List LoopEntry × Tab Word :=
  match loops with
  | [] => (fall, [], li)
  | e :: rest =>
    if e.last ≠ last then (fall, e :: rest, li)
    else if 1 < e.left then
      (e.first, { e with left := e.left - 1 } :: rest, Tab.set li e.depth (Tab.get li e.depth 0#32 + 1#32) 0#32)
    else endTests rest li last fall
/-- Pop entries until a target lies within the innermost remaining body (R37). -/
def popTo (loops : List LoopEntry) (target : Nat) : List LoopEntry :=
  match loops with
  | [] => []
  | e :: rest => if e.first ≤ target && target ≤ e.last then e :: rest else popTo rest target
/-- Where a pick leaves its sequencer: the next pick, the loop stack, and the fall-through address for lr. -/
structure Flow where
  pc : Nat
  loops : List LoopEntry
  li : Tab Word
  link : Nat
deriving DecidableEq, Repr
/-- The flow after end tests alone. -/
def Flow.ofTests (r : Nat × List LoopEntry × Tab Word) : Flow := { pc := r.1, loops := r.2.1, li := r.2.2, link := r.1 }
/-- The flow after the pick in progress. DESIGN CHOICE (log 51): where a loop or a rep stands itself in the last pick of an enclosing body,
that body's end test does not run at this pick, but at the last pick of the inner body, or of what a count of 0 skips. -/
def State.flow (s : State) (i : Issue) : Flow :=
  let q := s.me
  let fall := i.pick + i.bytes
  match i.control with
  | .fallThrough => Flow.ofTests (endTests q.loops q.li i.pick fall)
  | .jump target pops =>
    let f := Flow.ofTests (endTests q.loops q.li i.pick fall)
    { f with pc := target, loops := if pops then popTo f.loops target else f.loops }
  | .loopEntry e => { pc := e.first, loops := e :: q.loops, li := Tab.set q.li e.depth 0#32 0#32, link := fall }
  | .skipBody last => Flow.ofTests (endTests q.loops q.li last (last + s.pickSize last))
  | .skipPick => Flow.ofTests (endTests q.loops q.li fall (fall + s.pickSize fall))
  | .leave =>
    match q.loops with
    | [] => Flow.ofTests (fall, [], q.li)
    | e :: rest => Flow.ofTests (endTests rest q.li e.last (e.last + s.pickSize e.last))
/-- Does a pick end its group (R24, R332): by STOP, as a repeated pick, by a taken transfer, or as the last pick of a body? -/
def State.endsGroup (s : State) (i : Issue) : Bool :=
  let taken := match i.control with
    | .jump _ _ => true
    | _ => false
  i.stop || i.rep || taken || match s.me.loops with
  | e :: _ => e.last = i.pick
  | [] => false
/-- Iteration numbers as a pick leaves them. A loop's entry writes its own as a slot does: a later slot of the group reads the number
before or 0 (R331). An end test is no slot (R24): what it leaves is what every later slot reads. -/
def Seq.writeLi (q : Seq) (c : Transfer2) (li : Tab Word) : Seq :=
  let tested := fun (g : GroupWrite) => (List.range 6).any (fun d => g.dest == .li d && Tab.get li d 0#32 != Tab.get q.li d 0#32)
  match c with
  | .loopEntry e => { q.note (.li e.depth) q.steps (q.content (.li e.depth)) (BitVec.allOnes 1024) 0#1024 with li := li }
  | _ => { q with li := li, group := q.group.filter (fun g => !tested g) }
/-- The status word that a wait brings back is a write of its group, not there yet (R331). -/
def Seq.noteWait (q : Seq) (w : Option Wait) (step : Nat) : Seq :=
  match w with
  | some (.barrier _ d _ _) | some (.watch _ _ d) =>
    if d = 0 then q
    else { q with group := { dest := .s d, old := q.content (.s d), step := step + 1, mask := BitVec.allOnes 1024
                             value := 0#1024, back := false } :: q.group }
  | _ => q

/-! ## The end of a pick -/

/-- The other sequencers of a launch on a loom stop before their next whole pick (R298, ACT 1). -/
def Loom.stopOthers (l : Loom) (q id : Nat) : Loom :=
  { l with seqs := List.map (fun (p : Nat × Seq) =>
      if p.1 ≠ q && p.2.launch = id then (p.1, p.2.stopBefore) else p) l.seqs }
/-- The requests of a launch's other sequencers on a loom wait no longer. -/
def State.withdrawOthers (s : State) (l q id : Nat) : State :=
  let theirs := fun (w : Waiter) => w.loom = l && w.launch = id && w.agent < 8 && w.agent ≠ q
  (loomsOf (clusterOf l)).foldl (fun s o =>
    if (s.loom o).waiters.any theirs then s.updLoom o (fun x => x.dropWaiters theirs) else s) s
/-- The pick stops at a lane: a comparator writes no record, a slot fault ends the launch (R298, R314, R326). -/
def State.cutPick (s : State) (c : Cut) : State :=
  let id := s.me.launch
  if c.comparator < 16 then
    let s1 := s.stopHere (s.stopAt 0 c.lane c.comparator)
    if c.all then
      (s1.withdrawOthers s.cur.loom s.cur.seq id).updLoom s.cur.loom (fun l => l.stopOthers s.cur.seq id)
    else s1
  else
    (s.stopHere (s.stopAt c.code c.lane 16)).reportStop c.code 1 c.lane s.lanesDone s.cur.pick s.cur.step 0#64 0
/-- A sum that arrives at the step of the pick is due at the port (R222, R223). -/
def State.dueAtPort (s : State) (zadd : Option Nat) : State :=
  if s.cur.stream.isNone && (s.loom s.cur.loom).arrivesAt s.cur.seq s.cur.step then
    s.updLoom s.cur.loom (fun l => { l with portDue := some zadd })
  else s
/-- The sequencer stops issuing: a sum that is due arrives first, and a scaled command that remains is orphaned (R359). -/
def State.departs (s : State) : State :=
  if s.cur.stream.isSome then s
  else
    let s1 := if (s.loom s.cur.loom).portDue.isSome then stateOf (execPartialSumArrival s.cur.loom s) s else s
    s1.orphan s.cur.loom s.cur.seq
/-- HALT takes effect (R19, R162); a stream program that halts leaves its stream idle (R276). -/
def State.halts (s : State) : State :=
  match s.cur.stream with
  | some t => s.updTenancy t (fun x => { x with stream := x.stream.sleep, streamState := 0 })
  | none => s.departs.updMe Seq.sleep
/-- YIELD takes effect (R165, R39): no lane is held, and where a switch is requested the sequencer is at its switch point. -/
def State.yields (s : State) : State :=
  (s.updMe (fun q => { q with held := [] })).updLoom s.cur.loom (fun l =>
    if l.switchRequested then l.reach s.cur.seq true else l)
/-- Note a launch's first step on its loom (R78). -/
def State.noteStep (s : State) : State :=
  s.updLoom s.cur.loom (fun l => l.updRun s.me.launch (fun r =>
    if r.firstStep.isSome then r else { r with firstStep := some s.cycle }))
/-- Every slot of the pick has issued: its writes perform, it counts as a step, and the sequencer stands before its next
pick. -/
def State.completePick (s : State) (i : Issue) : State :=
  let s1 := s.commitWrites.countStep
  let f := s1.flow i
  let ends := s1.endsGroup i
  let s2 := if i.link then s1.resultS 62 1 (BitVec.ofNat 64 f.link) else s1
  let s3 := s2.updMe (fun q =>
    let q1 := (q.writeLi i.control f.li).noteWait i.after s.cur.step
    { q1 with pc := BitVec.ofNat 64 f.pc, loops := f.loops, group := if ends then [] else q1.group, replayed := false })
  let s4 := (if s.cur.stream.isSome then s3 else s3.noteStep).dueAtPort i.zadd
  let s5 := { s4 with issue := none, turn := { s4.turn with
    open_ := !ends && s4.turn.stage = 1 && s4.turn.primary = i.seq } }
  let s6 := if i.yields then s5.yields else s5
  let s7 := match i.after with
    | some w => s6.departs.updMe (fun q => { q with status := .waiting w, waitPick := i.pick })
    | none => s6
  let s8 := if i.halt then s7.halts else s7
  match i.trapCode with
  | some c => (s8.updMe (fun q => { q with group := [] })).stopWhole c i.present
  | none => s8
/-- The last slot of the pick in progress has issued. -/
def State.finishPick (s : State) : State :=
  match s.issue with
  | none => s
  | some i =>
    match i.cut with
    | some c => s.cutPick c
    | none => s.completePick i

/-! ## Slots of the pick in progress (R33, R34) -/

/-- A lane's hold after a slot of the pick has issued. -/
def Seq.holdAfter (q : Seq) (t : Todo) (pick : Nat) : Seq :=
  let n := match readSlot t.lane t.word t.lent with
    | some x => slotAdvance x t.offset
    | none => 0
  if t.held then
    { q with held := match Tab.find? q.held t.lane.index with
        | some h => Tab.put q.held t.lane.index { h with count := h.count + 1, offset := h.offset + n }
        | none => q.held }
  else if hBit t.word && t.lane ≠ .cf then
    { q with held := Tab.put q.held t.lane.index { word := t.word, lent := t.lent, count := 1, offset := n, pick := pick } }
  else { q with held := Tab.drop q.held t.lane.index }
/-- The next slot of the pick in progress, taken up. -/
def State.takeSlot (s : State) : Option (Todo × State) :=
  match s.issue with
  | none => none
  | some i =>
    match i.todo with
    | [] => none
    | t :: rest => some (t, { s.atSlot t with issue := some { i with todo := rest } })
/-- Class of the access of a memory slot (R192). -/
def slotClass (x : Slot) : Option (BitVec 4) :=
  match x.o with
  | .memSeg o => some o.cl
  | .memCross o => some o.cl
  | .memAcq o => some o.cl
  | .vaultCol o => some o.cl
  | .memFar o => some o.cl
  | _ => none
/-- What a slot holds back: a fence the accesses of the classes that it covers, or under .rel the writes alone, a lacq every later
access (R200, R202). -/
def slotHoldsBack (x : Slot) : HeldBack :=
  match x.m, x.o with
  | .fence, .fence o => { classes := o.mask, writes := o.kind = 2#2 }
  | .lacq, _ => { classes := 0xFFFF#16, writes := false }
  | _, _ => { classes := 0#16, writes := false }
/-- The atomics, which write as they read (R198). -/
def atomicForms : List Mnemonic :=
  [.aadd, .afadd, .amin, .amax, .aminu, .amaxu, .aand, .aor, .axor, .axch, .acas, .aadd64, .axch64, .acas64]
/-- The cycle until which the fences and the acquires before it hold back an access of a class. -/
def Seq.heldUntil (q : Seq) (m : Mnemonic) (cl : BitVec 4) : Nat :=
  q.fences.foldl (fun n f =>
    if f.1.classes.getLsbD cl.toNat && (!f.1.writes || atomicForms.contains m) then max n f.2 else n) 0
/-- The order of a fence or an acquire with the accesses of its sequencer that follow (R201, R202): the data of a later load or atomic that it
holds back is there no earlier than the cycle in which its condition holds. DEDUCED (log 10): the values are those of the cycle of issue,
at which every earlier access has performed; what is open is how long the port waits. -/
def State.ordered (s : State) (x : Slot) : State :=
  let mine := fun (l : Landing) => l.fromStep = s.cur.step && l.lane = s.cur.lane.index && l.data == .yes
  let s1 := match slotClass x with
    | some cl =>
      let until_ := s.me.heldUntil x.m cl
      if s.cycle < until_ then
        s.updMe (fun q => { q with flight := q.flight.map (fun l => if mine l then { l with data := .after until_ } else l) })
      else s
    | none => s
  if (slotHoldsBack x).classes = 0#16 then s1
  else
    let (n, s2) := s1.drawTime .fence
    s2.updMe (fun q => { q with fences := q.fences.filter (fun f => s.cycle < f.2) ++ [(slotHoldsBack x, s.cycle + n)] })
/-- A slot has issued; after the last the pick ends. Where the slot stopped its pick, or held it, nothing follows. -/
def State.afterSlot (s : State) (t : Todo) : State :=
  match s.issue with
  | none => s
  | some i =>
    let s0 := match readSlot t.lane t.word t.lent with
      | some x => s.ordered x
      | none => s
    let s1 := { s0.updMe (fun q => q.holdAfter t s.cur.pick) with
      issue := some { i with done := i.done ||| (1#14 <<< t.lane.index) } }
    if i.todo = [] then s1.finishPick else s1

/-! ## The merge (R28 to R30) -/

/-- The sequencers of a loom in the order of its merge, by the cycles that it has counted (R28). -/
def Loom.mergeOrder (l : Loom) (cycles : Nat) : List Nat :=
  let rr := cycles % 8
  let active := ((List.range 8).map (fun k => (rr + k) % 8)).filter (fun q => (l.seq q).status ≠ .dormant)
  sortBy (fun (a b : Nat) => (l.seq b).prio.toNat ≤ (l.seq a).prio.toNat) active
/-- Note what holds a sequencer in this cycle. -/
def State.noteCause (s : State) (q cause : Nat) : State :=
  { s with turn := { s.turn with causes := Tab.put s.turn.causes q cause } }
/-- Match the pick's slots with the comparators; ACT 2 writes its record (R298). -/
def State.matchPick (s : State) (r : Ready) : State :=
  if r.resumed then s
  else
    match s.walkComparators r.slots with
    | none => s
    | some (d, fired) =>
      let s1 := s.updLoom s.cur.loom (fun l => { l with debug := Tab.put l.debug s.myTenancy d })
      match fired with
      | some f =>
        if f.act = 2 && (match r.fault with | some x => f.lane ≤ x.1 | none => true) then
          s1.updLoom s.cur.loom (fun l =>
            l.addTrace (traceRecord 4 r.seq f.lane f.comparator r.pick 0 r.step))
        else s1
      | none => s1
/-- A pick begins to issue. That it has replayed is kept until it has issued whole: one that stops and is resumed replays no more
(R100). -/
def State.beginIssue (s : State) (a : Issuer) (r : Ready) : State :=
  let s1 := s.matchPick r
  let s2 := if s.cur.stream.isSome then s1 else s1.endRun s.cur.loom s.cur.seq
  let s3 := if s.me.slipped && s.excluded r then s2.stretch else s2
  let s4 := (s3.withdrawMe.pinPick s.me.launch r.needs).updMe (fun q => { q with
    conflictLeft := 0, conflictPaid := false, slipped := false, pendingSince := none, resuming := none })
  let s5 := { s4 with
    issue := some (r.issue a)
    turn := { s4.turn with
      issued := r.seq :: s4.turn.issued, lanes := s4.turn.lanes ||| r.lanes, open_ := false
      sizes := s4.turn.sizes ++ (sortBy (fun (a b : Claim) => b.size ≤ a.size) r.claims).map (·.size)
      banks := s4.turn.banks ++ r.banks } }
  if r.issuing = [] then s5.finishPick else s5
/-- May a pick issue beside those that have issued in this cycle: disjoint lanes, 8 lane groups at most, no bank shared?
The first of a cycle may, even one that claims more than 8 groups: it has the slot fault 0x108. -/
def Turn.fits (t : Turn) (r : Ready) : Bool :=
  t.issued.isEmpty || t.lanes &&& r.lanes == 0#14 && t.sizes.foldl (· + ·) 0 + groupsOf r.claims ≤ 8 &&
  r.banks.all (fun b => !t.banks.contains b)
/-- A freeze of a sequencer on its way to its switch point, by another cause than lost arbitration, lengthens the bound of the switch
(R286). -/
def State.lengthenSwitch (s : State) (l : Nat) : State :=
  match (s.loom l).switching with
  | none => s
  | some w =>
    let frozen := (s.loom l).seqs.countP (fun p =>
      p.2.status = .ready && !w.reached.contains p.1 && !s.turn.issued.contains p.1 && 1 < Tab.get s.turn.causes p.1 0)
    s.updLoom l (fun x => { x with
      switching := some { w with lightLimit := w.lightLimit.map (· + frozen), fullLimit := w.fullLimit.map (· + frozen) } })
/-- The turn of an agent ends, and the next begins. -/
def State.endTurn (s : State) (a : Issuer) : State :=
  let s1 := match a with
    | .loom l => ((s.accountFreezes l).lengthenSwitch l).updLoom l Loom.noteReached
    | .stream _ => s
  { s1 with turn := { Turn.start with agent := issuerNumber a + 1 } }
/-- Assess the sequencers that are left, for their requests and their causes: a pick that could have issued has lost. -/
def State.assessRest (s : State) (a : Issuer) (qs : List Nat) : State :=
  match qs with
  | [] => s.endTurn a
  | q :: rest =>
    match s.assess a q with
    | (.out, t) => State.assessRest t a rest
    | (.frozen c, t) => State.assessRest (t.noteCause q c) a rest
    | (.ready _, t) => State.assessRest (t.noteCause q 1) a rest
/-- The first sequencer in merge order that can issue; `stage` is what the turn becomes. -/
def State.mergeNext (s : State) (a : Issuer) (stage : Nat) (qs : List Nat) : State :=
  match qs with
  | [] => s.endTurn a
  | q :: rest =>
    match s.assess a q with
    | (.out, t) => State.mergeNext t a stage rest
    | (.frozen c, t) => State.mergeNext (t.noteCause q c) a stage rest
    | (.ready r, t) =>
      if !t.turn.fits r then State.mergeNext (t.noteCause q 1) a stage rest
      else if !t.me.slipped && t.excluded r then State.mergeNext (t.slip.noteCause q 7) a stage rest
      else
        let turn := { t.turn with stage := stage, ready := rest, primary := if stage = 1 then q else t.turn.primary }
        ({ t with turn := turn }).beginIssue a r
/-- Does a loom's sequencer come to a taga in this cycle, with no tag granted to it yet? -/
def State.comesToTaga (s : State) (l q : Nat) : Bool :=
  let s1 := s.turnTo (.loom l) q
  s1.mayIssue && s1.me.granted.isNone && match s1.pickWords s1.cur.pick with
  | none => false
  | some ws => (pickSlots ws).any (fun p => p.1 = .cf && match checkSlot p.1 p.2.word p.2.lent with
    | .ok x => x.m = .taga
    | .error _ => false)
/-- The second pick of the primary's group, where it can issue in this cycle (R29). DESIGN CHOICE (log 50): one that placement would put
above a full-rate quadrant is not paired, and counts no slip: R32 speaks of a pick that the merge has chosen. One with a taga that has no tag
yet is not paired either: its request reaches the allocator in the next cycle, with those of the other sequencers (R66; log 9). -/
def State.pairPick (s : State) (a : Issuer) : Option State :=
  let asks := match a with
    | .loom l => s.comesToTaga l s.turn.primary
    | .stream _ => false
  if !s.turn.open_ || asks then none
  else
    match s.assess a s.turn.primary with
    | (.ready r, t) =>
      if t.turn.fits r && !(t.excluded r && !t.me.slipped) then
        some (({ t with turn := { t.turn with stage := 2 } }).beginIssue a r)
      else none
    | _ => none
/-- A sequencer's taga asks the allocator, once, which serves it now: the tag is promised to it, and the answer takes a time that
is free (R66). With the quota used up the answer is there at once, and the request stalls. DESIGN CHOICE (log 76): the request reaches the
allocator in the first cycle in which its pick stands next, even while something else freezes that pick. -/
def State.askTag (s : State) (l q : Nat) : State :=
  if (s.seq l q).asked.isSome then s
  else
    let s1 := s.turnTo (.loom l) q
    match (s1.allocator (clusterOf l) s1.myTenancy).grant s1.me.launch s1.myQuota with
    | some g =>
      let (n, s2) := s1.drawTime .tagGrant
      (s2.updAllocator (clusterOf l) s1.myTenancy (fun a => a.promise g s1.me.launch)).updSeq l q
        (fun x => { x with asked := some (s.cycle + n), answer := some (BitVec.ofNat 12 g) })
    | none => (if s1.myQuota = 0 then s1 else s1.stallMe).updSeq l q (fun x => { x with asked := some s.cycle })
/-- The allocator's answer to a taga reaches its sequencer. -/
def Seq.answered (q : Seq) (cycle : Nat) : Seq :=
  if q.answer.isSome && q.asked.all (fun at_ => at_ ≤ cycle) then { q with granted := q.answer, answer := none } else q
/-- The tagas of a loom that reach the allocator in this cycle are served in ascending sequencer, whatever the order of the merge;
the looms come in ascending number (R66). -/
def State.promiseTags (s : State) (l : Nat) : State :=
  ((List.map (fun (p : Nat × Seq) => p.1) (s.loom l).seqs).filter (fun q => s.comesToTaga l q)).foldl
    (fun s q => (s.askTag l q).updSeq l q (fun x => x.answered s.cycle)) s
/-- What an agent's turn does next. -/
def State.turnOf (s : State) (a : Issuer) : State :=
  match s.turn.stage with
  | 0 =>
    match a with
    | .loom l => (s.promiseTags l).mergeNext a 1 ((s.loom l).mergeOrder (s.loomCycles l))
    | .stream _ => s.mergeNext a 2 [0]
  | 1 =>
    match s.pairPick a with
    | some t => t
    | none => s.mergeNext a 2 s.turn.ready
  | _ => s.assessRest a s.turn.ready
/-- PICK_ISSUE: an agent's merge chooses a pick, whose slots then issue one by one, or its turn ends. An agent whose turn
in this cycle has passed issues nothing. -/
def execPickIssue (agent : Issuer) (s : State) : Host.Outcome State Fault Refusal :=
  let n := issuerNumber agent
  let exists_ := match agent with
    | .loom l => l < 1280
    | .stream t => t < 64
  if !exists_ then .fault .noSuchAgent
  else .next (match s.issue with
    | some i => if i.agent = agent && i.todo = [] then s.finishPick else s
    | none =>
      if n < s.turn.agent then s
      else if n = s.turn.agent then s.turnOf agent
      else ({ s with turn := { Turn.start with agent := n } } : State).turnOf agent)

end Sys2Proof.Machine
end

