-- ==== Sys2Proof/Machine/Sort.lean ====
section
/-!
DEFINITION. The sort lane so (R188, R189). Every comparison reads the registers as they stood at issue; keys and payloads
move as unchanged bits.
-/

namespace Sys2Proof.Machine

/-- Key type of an so slot as a vector type: f32, bf16, f16, i32, i16 (R118). -/
def sortType (t : Nat) : Nat :=
  match t with
  | 3 => 5 | 4 => 6 | n => n
/-- Is a key a NaN? -/
def keyNan (t x : Nat) : Bool := isFpType t && ((typeFmt t).decode x).isNan
/-- A key as a number to order by: −0 below +0, integers signed (R188). -/
def keyOrder (t size x : Nat) : Int :=
  if isFpType t then
    let mag := x % 2 ^ (size - 1)
    if x < 2 ^ (size - 1) then (mag : Int) else -(mag : Int) - 1
  else toSigned size x
/-- Does element (x, px) belong before (y, py)? -/
def precedes (t size : Nat) (desc payload : Bool) (x px y py : Nat) : Bool :=
  if keyNan t x && !keyNan t y then false
  else if keyNan t y && !keyNan t x then true
  else if !keyNan t x && x != y then
    if desc then keyOrder t size y < keyOrder t size x else keyOrder t size x < keyOrder t size y
  else payload && toSigned size px < toSigned size py

/-- The registers of an so slot at issue: keys and payloads, lower and upper. -/
structure SortSlot where
  t : Nat
  size : Nat
  n : Nat
  width : Nat
  payload : Bool
  k : VReg
  p : VReg
  k2 : VReg
  p2 : VReg
deriving DecidableEq, Repr
/-- Read an so slot. P = 0x7F names no payload. -/
def State.sortSlot (s : State) (o : SortOps) : SortSlot :=
  let t := sortType o.t.toNat
  let size := typeSize t
  { t := t, size := size, n := 256 * 2 ^ o.w.toNat / size, width := 256 * 2 ^ o.w.toNat, payload := o.p != 0x7F#7,
    k := s.readVec o.k.toNat, p := s.readVec o.p.toNat, k2 := s.readVec (o.k.toNat + 1), p2 := s.readVec (o.p.toNat + 1) }
/-- Does the pair of lower (x, px) and upper (y, py) exchange? -/
def SortSlot.swaps (v : SortSlot) (desc : Bool) (x px y py : Nat) : Bool := precedes v.t v.size desc v.payload y py x px
/-- Write a register of the width, elements that do not exchange included, with the values read at issue: R188 does not say whether they
are rewritten (DESIGN CHOICE, log 69). -/
def State.sortWrite (s : State) (v : SortSlot) (r : Nat) (xs : List Nat) : State :=
  s.result (.v r) 2 (BitVec.ofNat 1024 (2 ^ v.width - 1)) (BitVec.ofNat 1024 (packElems v.size xs))
/-- Compare-exchange within one register: element i with i + 2^J (R189). With 2^J ≥ n it forms no pair and changes nothing
(R349). -/
def State.sortOne (s : State) (o : SortOps) (desc : Nat → Bool) : State :=
  let v := s.sortSlot o
  let step := 2 ^ o.j.toNat
  let key := elemAt v.k v.size
  let pay := elemAt v.p v.size
  let pair := fun (i : Nat) =>
    i + step < v.n && !i.testBit o.j.toNat && s.lentActive o.guard v.size i &&
      v.swaps (desc i) (key i) (pay i) (key (i + step)) (pay (i + step))
  let source := fun (i : Nat) => if pair i then i + step else if step ≤ i && pair (i - step) then i - step else i
  let s1 := s.sortWrite v o.k.toNat ((List.range v.n).map (fun i => key (source i)))
  if v.n ≤ step then s
  else if v.payload then s1.sortWrite v o.p.toNat ((List.range v.n).map (fun i => pay (source i))) else s1
/-- Compare-exchange between registers K and K + 1 (R189). -/
def State.sortTwo (s : State) (o : SortOps) (desc : Bool) : State :=
  let v := s.sortSlot o
  let e := fun (x : VReg) (i : Nat) => elemAt x v.size i
  let swap := fun (i : Nat) =>
    s.lentActive o.guard v.size i && v.swaps desc (e v.k i) (e v.p i) (e v.k2 i) (e v.p2 i)
  let pick := fun (x y : VReg) => (List.range v.n).map (fun i => if swap i then e y i else e x i)
  let s1 := (s.sortWrite v o.k.toNat (pick v.k v.k2)).sortWrite v (o.k.toNat + 1) (pick v.k2 v.k)
  if v.payload then (s1.sortWrite v o.p.toNat (pick v.p v.p2)).sortWrite v (o.p.toNat + 1) (pick v.p2 v.p) else s1

/-- scxd: descending (Table 10.10). -/
def execScxd (o : SortOps) (s : State) : Host.Outcome State Fault Refusal := .next (s.sortOne o (fun _ => true))
/-- scxa: ascending. -/
def execScxa (o : SortOps) (s : State) : Host.Outcome State Fault Refusal := .next (s.sortOne o (fun _ => false))
/-- scxb: descending where bit X + 1 of i is 0. -/
def execScxb (o : SortOps) (s : State) : Host.Outcome State Fault Refusal :=
  .next (s.sortOne o (fun i => !i.testBit (o.x.toNat + 1)))
/-- scx2d: descending, across two registers. -/
def execScx2d (o : SortOps) (s : State) : Host.Outcome State Fault Refusal := .next (s.sortTwo o true)
/-- scx2a: ascending, across two registers. -/
def execScx2a (o : SortOps) (s : State) : Host.Outcome State Fault Refusal := .next (s.sortTwo o false)

end Sys2Proof.Machine
end

