-- ==== Sys2Proof/Machine/Dispatch.lean ====
section
/-! DEFINITION. One arm for each constructor of Instr: a direct call of its meaning. -/

namespace Sys2Proof.Machine

/-- The meaning of an instruction. -/
def exec (i : Instr) (s : State) : Host.Outcome State Fault Refusal :=
  match i with
  | .pickIssue agent => Sys2Proof.Machine.execPickIssue agent s
  | .subnormalReplay loom seq => Sys2Proof.Machine.execSubnormalReplay loom seq s
  | .nop => Sys2Proof.Machine.execNop s
  | .add o => Sys2Proof.Machine.execAdd o s
  | .addImm o => Sys2Proof.Machine.execAddImm o s
  | .sub o => Sys2Proof.Machine.execSub o s
  | .subImm o => Sys2Proof.Machine.execSubImm o s
  | .mul o => Sys2Proof.Machine.execMul o s
  | .mulImm o => Sys2Proof.Machine.execMulImm o s
  | .mulh o => Sys2Proof.Machine.execMulh o s
  | .mulhImm o => Sys2Proof.Machine.execMulhImm o s
  | .mulhu o => Sys2Proof.Machine.execMulhu o s
  | .mulhuImm o => Sys2Proof.Machine.execMulhuImm o s
  | .div o => Sys2Proof.Machine.execDiv o s
  | .divImm o => Sys2Proof.Machine.execDivImm o s
  | .divu o => Sys2Proof.Machine.execDivu o s
  | .divuImm o => Sys2Proof.Machine.execDivuImm o s
  | .rem o => Sys2Proof.Machine.execRem o s
  | .remImm o => Sys2Proof.Machine.execRemImm o s
  | .remu o => Sys2Proof.Machine.execRemu o s
  | .remuImm o => Sys2Proof.Machine.execRemuImm o s
  | .and o => Sys2Proof.Machine.execAnd o s
  | .andImm o => Sys2Proof.Machine.execAndImm o s
  | .or o => Sys2Proof.Machine.execOr o s
  | .orImm o => Sys2Proof.Machine.execOrImm o s
  | .xor o => Sys2Proof.Machine.execXor o s
  | .xorImm o => Sys2Proof.Machine.execXorImm o s
  | .andn o => Sys2Proof.Machine.execAndn o s
  | .andnImm o => Sys2Proof.Machine.execAndnImm o s
  | .shl o => Sys2Proof.Machine.execShl o s
  | .shlImm o => Sys2Proof.Machine.execShlImm o s
  | .shr o => Sys2Proof.Machine.execShr o s
  | .shrImm o => Sys2Proof.Machine.execShrImm o s
  | .sar o => Sys2Proof.Machine.execSar o s
  | .sarImm o => Sys2Proof.Machine.execSarImm o s
  | .rol o => Sys2Proof.Machine.execRol o s
  | .rolImm o => Sys2Proof.Machine.execRolImm o s
  | .min o => Sys2Proof.Machine.execMin o s
  | .minImm o => Sys2Proof.Machine.execMinImm o s
  | .max o => Sys2Proof.Machine.execMax o s
  | .maxImm o => Sys2Proof.Machine.execMaxImm o s
  | .minu o => Sys2Proof.Machine.execMinu o s
  | .minuImm o => Sys2Proof.Machine.execMinuImm o s
  | .maxu o => Sys2Proof.Machine.execMaxu o s
  | .maxuImm o => Sys2Proof.Machine.execMaxuImm o s
  | .seq o => Sys2Proof.Machine.execSeq o s
  | .seqImm o => Sys2Proof.Machine.execSeqImm o s
  | .sne o => Sys2Proof.Machine.execSne o s
  | .sneImm o => Sys2Proof.Machine.execSneImm o s
  | .slt o => Sys2Proof.Machine.execSlt o s
  | .sltImm o => Sys2Proof.Machine.execSltImm o s
  | .sltu o => Sys2Proof.Machine.execSltu o s
  | .sltuImm o => Sys2Proof.Machine.execSltuImm o s
  | .sle o => Sys2Proof.Machine.execSle o s
  | .sleImm o => Sys2Proof.Machine.execSleImm o s
  | .sleu o => Sys2Proof.Machine.execSleu o s
  | .sleuImm o => Sys2Proof.Machine.execSleuImm o s
  | .csel o => Sys2Proof.Machine.execCsel o s
  | .cselImm o => Sys2Proof.Machine.execCselImm o s
  | .movi o => Sys2Proof.Machine.execMovi o s
  | .movk o => Sys2Proof.Machine.execMovk o s
  | .clz o => Sys2Proof.Machine.execClz o s
  | .ctz o => Sys2Proof.Machine.execCtz o s
  | .popc o => Sys2Proof.Machine.execPopc o s
  | .bext o => Sys2Proof.Machine.execBext o s
  | .bextImm o => Sys2Proof.Machine.execBextImm o s
  | .bins o => Sys2Proof.Machine.execBins o s
  | .binsImm o => Sys2Proof.Machine.execBinsImm o s
  | .sext o => Sys2Proof.Machine.execSext o s
  | .sextImm o => Sys2Proof.Machine.execSextImm o s
  | .fadd64 o => Sys2Proof.Machine.execFadd64 o s
  | .fsub64 o => Sys2Proof.Machine.execFsub64 o s
  | .fmul64 o => Sys2Proof.Machine.execFmul64 o s
  | .fdiv64 o => Sys2Proof.Machine.execFdiv64 o s
  | .fmin64 o => Sys2Proof.Machine.execFmin64 o s
  | .fmax64 o => Sys2Proof.Machine.execFmax64 o s
  | .feq o => Sys2Proof.Machine.execFeq o s
  | .flt o => Sys2Proof.Machine.execFlt o s
  | .fle o => Sys2Proof.Machine.execFle o s
  | .fcvtfi o => Sys2Proof.Machine.execFcvtfi o s
  | .fcvtif o => Sys2Proof.Machine.execFcvtif o s
  | .fsqrt64 o => Sys2Proof.Machine.execFsqrt64 o s
  | .rdsys o => Sys2Proof.Machine.execRdsys o s
  | .wrsys o => Sys2Proof.Machine.execWrsys o s
  | .segq o => Sys2Proof.Machine.execSegq o s
  | .segqImm o => Sys2Proof.Machine.execSegqImm o s
  | .whoami o => Sys2Proof.Machine.execWhoami o s
  | .rdcnt o => Sys2Proof.Machine.execRdcnt o s
  | .rdcntImm o => Sys2Proof.Machine.execRdcntImm o s
  | .lidx o => Sys2Proof.Machine.execLidx o s
  | .rdtok o => Sys2Proof.Machine.execRdtok o s
  | .rdtag o => Sys2Proof.Machine.execRdtag o s
  | .brc a n off => Sys2Proof.Machine.execBrc a n off s
  | .call off => Sys2Proof.Machine.execCall off s
  | .jmp a => Sys2Proof.Machine.execJmp a s
  | .calli a => Sys2Proof.Machine.execCalli a s
  | .ret => Sys2Proof.Machine.execRet s
  | .loop cnt len => Sys2Proof.Machine.execLoop cnt len s
  | .loopReg a len => Sys2Proof.Machine.execLoopReg a len s
  | .loopq q len => Sys2Proof.Machine.execLoopq q len s
  | .brkl => Sys2Proof.Machine.execBrkl s
  | .rep cnt stride => Sys2Proof.Machine.execRep cnt stride s
  | .repReg a stride => Sys2Proof.Machine.execRepReg a stride s
  | .wait bar phase d a => Sys2Proof.Machine.execWait bar phase d a s
  | .arrive bar n => Sys2Proof.Machine.execArrive bar n s
  | .arriveReg bar a => Sys2Proof.Machine.execArriveReg bar a s
  | .arrivew bar n d => Sys2Proof.Machine.execArrivew bar n d s
  | .arrivewReg bar a d => Sys2Proof.Machine.execArrivewReg bar a d s
  | .dtwait mask => Sys2Proof.Machine.execDtwait mask s
  | .spawn seq base count entry => Sys2Proof.Machine.execSpawn seq base count entry s
  | .halt => Sys2Proof.Machine.execHalt s
  | .trap code => Sys2Proof.Machine.execTrap code s
  | .mark mstep => Sys2Proof.Machine.execMark mstep s
  | .yield => Sys2Proof.Machine.execYield s
  | .taga d => Sys2Proof.Machine.execTaga d s
  | .tret a => Sys2Proof.Machine.execTret a s
  | .tfold a => Sys2Proof.Machine.execTfold a s
  | .tset a => Sys2Proof.Machine.execTset a s
  | .cqfill q seg o cnt => Sys2Proof.Machine.execCqfill q seg o cnt s
  | .cqpush q a => Sys2Proof.Machine.execCqpush q a s
  | .launch a b => Sys2Proof.Machine.execLaunch a b s
  | .waitw a b => Sys2Proof.Machine.execWaitw a b s
  | .signal a b => Sys2Proof.Machine.execSignal a b s
  | .fadd o => Sys2Proof.Machine.execFadd o s
  | .fsub o => Sys2Proof.Machine.execFsub o s
  | .fmul o => Sys2Proof.Machine.execFmul o s
  | .fma o => Sys2Proof.Machine.execFma o s
  | .fmin o => Sys2Proof.Machine.execFmin o s
  | .fmax o => Sys2Proof.Machine.execFmax o s
  | .fabs o => Sys2Proof.Machine.execFabs o s
  | .fneg o => Sys2Proof.Machine.execFneg o s
  | .iadd o => Sys2Proof.Machine.execIadd o s
  | .isub o => Sys2Proof.Machine.execIsub o s
  | .imul o => Sys2Proof.Machine.execImul o s
  | .imulh o => Sys2Proof.Machine.execImulh o s
  | .iand o => Sys2Proof.Machine.execIand o s
  | .ior o => Sys2Proof.Machine.execIor o s
  | .ixor o => Sys2Proof.Machine.execIxor o s
  | .ishl o => Sys2Proof.Machine.execIshl o s
  | .ishr o => Sys2Proof.Machine.execIshr o s
  | .isar o => Sys2Proof.Machine.execIsar o s
  | .imin o => Sys2Proof.Machine.execImin o s
  | .imax o => Sys2Proof.Machine.execImax o s
  | .iminu o => Sys2Proof.Machine.execIminu o s
  | .imaxu o => Sys2Proof.Machine.execImaxu o s
  | .iaddi o => Sys2Proof.Machine.execIaddi o s
  | .idot4 o => Sys2Proof.Machine.execIdot4 o s
  | .vcmp o => Sys2Proof.Machine.execVcmp o s
  | .vsel o => Sys2Proof.Machine.execVsel o s
  | .vmov o => Sys2Proof.Machine.execVmov o s
  | .vbcs o => Sys2Proof.Machine.execVbcs o s
  | .vidx o => Sys2Proof.Machine.execVidx o s
  | .vshuf o => Sys2Proof.Machine.execVshuf o s
  | .vrot o => Sys2Proof.Machine.execVrot o s
  | .vcat o => Sys2Proof.Machine.execVcat o s
  | .vred o => Sys2Proof.Machine.execVred o s
  | .vscan o => Sys2Proof.Machine.execVscan o s
  | .vput o => Sys2Proof.Machine.execVput o s
  | .vcvt o => Sys2Proof.Machine.execVcvt o s
  | .vpack o => Sys2Proof.Machine.execVpack o s
  | .vunpk o => Sys2Proof.Machine.execVunpk o s
  | .vmaxe o => Sys2Proof.Machine.execVmaxe o s
  | .vqnt o => Sys2Proof.Machine.execVqnt o s
  | .vdeq o => Sys2Proof.Machine.execVdeq o s
  | .vrmm o => Sys2Proof.Machine.execVrmm o s
  | .pand o => Sys2Proof.Machine.execPand o s
  | .por o => Sys2Proof.Machine.execPor o s
  | .pxor o => Sys2Proof.Machine.execPxor o s
  | .pnot o => Sys2Proof.Machine.execPnot o s
  | .pmov o => Sys2Proof.Machine.execPmov o s
  | .vclass o => Sys2Proof.Machine.execVclass o s
  | .vrnd o => Sys2Proof.Machine.execVrnd o s
  | .frcp o => Sys2Proof.Machine.execFrcp o s
  | .frsqrt o => Sys2Proof.Machine.execFrsqrt o s
  | .fnFsqrt o => Sys2Proof.Machine.execFnFsqrt o s
  | .fnFdiv o => Sys2Proof.Machine.execFnFdiv o s
  | .fexp2 o => Sys2Proof.Machine.execFexp2 o s
  | .flog2 o => Sys2Proof.Machine.execFlog2 o s
  | .fexp o => Sys2Proof.Machine.execFexp o s
  | .flog o => Sys2Proof.Machine.execFlog o s
  | .fsin o => Sys2Proof.Machine.execFsin o s
  | .fcos o => Sys2Proof.Machine.execFcos o s
  | .ftanh o => Sys2Proof.Machine.execFtanh o s
  | .fsigm o => Sys2Proof.Machine.execFsigm o s
  | .ferf o => Sys2Proof.Machine.execFerf o s
  | .scxd o => Sys2Proof.Machine.execScxd o s
  | .scxa o => Sys2Proof.Machine.execScxa o s
  | .scxb o => Sys2Proof.Machine.execScxb o s
  | .scx2d o => Sys2Proof.Machine.execScx2d o s
  | .scx2a o => Sys2Proof.Machine.execScx2a o s
  | .lb o => Sys2Proof.Machine.execLb o s
  | .lbu o => Sys2Proof.Machine.execLbu o s
  | .lh o => Sys2Proof.Machine.execLh o s
  | .lhu o => Sys2Proof.Machine.execLhu o s
  | .lw o => Sys2Proof.Machine.execLw o s
  | .lwu o => Sys2Proof.Machine.execLwu o s
  | .ld o => Sys2Proof.Machine.execLd o s
  | .sb o => Sys2Proof.Machine.execSb o s
  | .sh o => Sys2Proof.Machine.execSh o s
  | .sw o => Sys2Proof.Machine.execSw o s
  | .sd o => Sys2Proof.Machine.execSd o s
  | .lvW256 o => Sys2Proof.Machine.execLvW256 o s
  | .lvW512 o => Sys2Proof.Machine.execLvW512 o s
  | .lvW1024 o => Sys2Proof.Machine.execLvW1024 o s
  | .svW256 o => Sys2Proof.Machine.execSvW256 o s
  | .svW512 o => Sys2Proof.Machine.execSvW512 o s
  | .svW1024 o => Sys2Proof.Machine.execSvW1024 o s
  | .lvg o => Sys2Proof.Machine.execLvg o s
  | .svg o => Sys2Proof.Machine.execSvg o s
  | .ldx o => Sys2Proof.Machine.execLdx o s
  | .lvx o => Sys2Proof.Machine.execLvx o s
  | .aadd o => Sys2Proof.Machine.execAadd o s
  | .afadd o => Sys2Proof.Machine.execAfadd o s
  | .amin o => Sys2Proof.Machine.execAmin o s
  | .amax o => Sys2Proof.Machine.execAmax o s
  | .aminu o => Sys2Proof.Machine.execAminu o s
  | .amaxu o => Sys2Proof.Machine.execAmaxu o s
  | .aand o => Sys2Proof.Machine.execAand o s
  | .aor o => Sys2Proof.Machine.execAor o s
  | .axor o => Sys2Proof.Machine.execAxor o s
  | .axch o => Sys2Proof.Machine.execAxch o s
  | .acas o => Sys2Proof.Machine.execAcas o s
  | .aadd64 o => Sys2Proof.Machine.execAadd64 o s
  | .axch64 o => Sys2Proof.Machine.execAxch64 o s
  | .acas64 o => Sys2Proof.Machine.execAcas64 o s
  | .fence o => Sys2Proof.Machine.execFence o s
  | .lacq o => Sys2Proof.Machine.execLacq o s
  | .srel o => Sys2Proof.Machine.execSrel o s
  | .binit o => Sys2Proof.Machine.execBinit o s
  | .bbind o => Sys2Proof.Machine.execBbind o s
  | .btx o => Sys2Proof.Machine.execBtx o s
  | .vact o => Sys2Proof.Machine.execVact o s
  | .vpre o => Sys2Proof.Machine.execVpre o s
  | .vref o => Sys2Proof.Machine.execVref o s
  | .vld o => Sys2Proof.Machine.execVld o s
  | .vst o => Sys2Proof.Machine.execVst o s
  | .vldr o => Sys2Proof.Machine.execVldr o s
  | .vstr o => Sys2Proof.Machine.execVstr o s
  | .lfd o => Sys2Proof.Machine.execLfd o s
  | .sfd o => Sys2Proof.Machine.execSfd o s
  | .mma o => Sys2Proof.Machine.execMma o s
  | .mmaz o => Sys2Proof.Machine.execMmaz o s
  | .mmag o => Sys2Proof.Machine.execMmag o s
  | .mzero o => Sys2Proof.Machine.execMzero o s
  | .mdrain o => Sys2Proof.Machine.execMdrain o s
  | .mshape o => Sys2Proof.Machine.execMshape o s
  | .mwin o => Sys2Proof.Machine.execMwin o s
  | .mmaw o => Sys2Proof.Machine.execMmaw o s
  | .mload o => Sys2Proof.Machine.execMload o s
  | .zld o => Sys2Proof.Machine.execZld o s
  | .zadd o => Sys2Proof.Machine.execZadd o s
  | .zset o => Sys2Proof.Machine.execZset o s
  | .copy o => Sys2Proof.Machine.execCopy o s
  | .mcast o => Sys2Proof.Machine.execMcast o s
  | .reduce o => Sys2Proof.Machine.execReduce o s
  | .post o => Sys2Proof.Machine.execPost o s
  | .recallSeg o => Sys2Proof.Machine.execRecall o s
  | .pushout o => Sys2Proof.Machine.execPushout o s
  | .fill o => Sys2Proof.Machine.execFill o s
  | .gthr o => Sys2Proof.Machine.execGthr o s
  | .sctr o => Sys2Proof.Machine.execSctr o s
  | .vxfer o => Sys2Proof.Machine.execVxfer o s
  | .copyb o => Sys2Proof.Machine.execCopyb o s
  | .jcfg o => Sys2Proof.Machine.execJcfg o s
  | .jord o => Sys2Proof.Machine.execJord o s
  | .jvar o => Sys2Proof.Machine.execJvar o s
  | .jmk o => Sys2Proof.Machine.execJmk o s
  | .japp o => Sys2Proof.Machine.execJapp o s
  | .jite o => Sys2Proof.Machine.execJite o s
  | .jres o => Sys2Proof.Machine.execJres o s
  | .jexq o => Sys2Proof.Machine.execJexq o s
  | .jcnt o => Sys2Proof.Machine.execJcnt o s
  | .jsat o => Sys2Proof.Machine.execJsat o s
  | .jexp o => Sys2Proof.Machine.execJexp o s
  | .jref o => Sys2Proof.Machine.execJref o s
  | .jdrf o => Sys2Proof.Machine.execJdrf o s
  | .jgc o => Sys2Proof.Machine.execJgc o s
  | .jstat o => Sys2Proof.Machine.execJstat o s
  | .jclr o => Sys2Proof.Machine.execJclr o s
  | .chunkGrant loom eng => Sys2Proof.Machine.execChunkGrant loom eng s
  | .chunkRetire loom eng => Sys2Proof.Machine.execChunkRetire loom eng s
  | .engineCommandComplete loom eng => Sys2Proof.Machine.execEngineCommandComplete loom eng s
  | .partialSumArrival loom => Sys2Proof.Machine.execPartialSumArrival loom s
  | .handlerStart loom => Sys2Proof.Machine.execHandlerStart loom s
  | .spindleTransferComplete loom => Sys2Proof.Machine.execSpindleTransferComplete loom s
  | .allocationComplete loom => Sys2Proof.Machine.execAllocationComplete loom s
  | .overlayMaterialise loom => Sys2Proof.Machine.execOverlayMaterialise loom s
  | .tagGrant cluster tenancy => Sys2Proof.Machine.execTagGrant cluster tenancy s
  | .tagFreed cluster tenancy tag => Sys2Proof.Machine.execTagFreed cluster tenancy tag s
  | .arrivalUpdate loom => Sys2Proof.Machine.execArrivalUpdate loom s
  | .waitTimeout loom seq => Sys2Proof.Machine.execWaitTimeout loom seq s
  | .refreshDeadline loom bank group => Sys2Proof.Machine.execRefreshDeadline loom bank group s
  | .vaultTemperatureChange loom band => Sys2Proof.Machine.execVaultTemperatureChange loom band s
  | .sharedBankServe loom => Sys2Proof.Machine.execSharedBankServe loom s
  | .farReadCompletion read status => Sys2Proof.Machine.execFarReadCompletion read status s
  | .farCompletionTimeout read => Sys2Proof.Machine.execFarCompletionTimeout read s
  | .farWritePerform stack accepted => Sys2Proof.Machine.execFarWritePerform stack accepted s
  | .peerAccessArrival access => Sys2Proof.Machine.execPeerAccessArrival access s
  | .reducePartnerTimeout loom => Sys2Proof.Machine.execReducePartnerTimeout loom s
  | .containment loom => Sys2Proof.Machine.execContainment loom s
  | .loomReset loom => Sys2Proof.Machine.execLoomReset loom s
  | .loomResetComplete loom => Sys2Proof.Machine.execLoomResetComplete loom s
  | .launchBlockReadDone launch status => Sys2Proof.Machine.execLaunchBlockReadDone launch status s
  | .launchBlockRefetch launch => Sys2Proof.Machine.execLaunchBlockRefetch launch s
  | .launchCopiesDone launch status => Sys2Proof.Machine.execLaunchCopiesDone launch status s
  | .launchStart launch => Sys2Proof.Machine.execLaunchStart launch s
  | .launchComplete launch => Sys2Proof.Machine.execLaunchComplete launch s
  | .watchedWordChange tenancy => Sys2Proof.Machine.execWatchedWordChange tenancy s
  | .quantumExpiry loom => Sys2Proof.Machine.execQuantumExpiry loom s
  | .fullSwitch loom => Sys2Proof.Machine.execFullSwitch loom s
  | .switchInComplete loom => Sys2Proof.Machine.execSwitchInComplete loom s
  | .spcWrite tenancy value => Sys2Proof.Machine.execSpcWrite tenancy value s
  | .shalt tenancy value => Sys2Proof.Machine.execShalt tenancy value s
  | .snapgo tenancy value => Sys2Proof.Machine.execSnapgo tenancy value s
  | .snapshotComplete tenancy verifies => Sys2Proof.Machine.execSnapshotComplete tenancy verifies s
  | .sresume tenancy value => Sys2Proof.Machine.execSresume tenancy value s
  | .sresumeRelaunch tenancy => Sys2Proof.Machine.execSresumeRelaunch tenancy s
  | .registerWrite tenancy offset value => Sys2Proof.Machine.execRegisterWrite tenancy offset value s
  | .dbgloomWrite tenancy value => Sys2Proof.Machine.execDbgloomWrite tenancy value s
  | .dbgresume tenancy value => Sys2Proof.Machine.execDbgresume tenancy value s
  | .compWrite tenancy comparator value => Sys2Proof.Machine.execCompWrite tenancy comparator value s
  | .dumpgo tenancy value => Sys2Proof.Machine.execDumpgo tenancy value s
  | .dumpComplete tenancy => Sys2Proof.Machine.execDumpComplete tenancy s
  | .dumpAbandon tenancy sent => Sys2Proof.Machine.execDumpAbandon tenancy sent s
  | .fltack tenancy value => Sys2Proof.Machine.execFltack tenancy value s
  | .fltretry tenancy value => Sys2Proof.Machine.execFltretry tenancy value s
  | .fltend tenancy value => Sys2Proof.Machine.execFltend tenancy value s
  | .hostPostedWrite write => Sys2Proof.Machine.execHostPostedWrite write s
  | .hostReadRequest tenancy addr size relaxed => Sys2Proof.Machine.execHostReadRequest tenancy addr size relaxed s
  | .functionLevelReset tenancy => Sys2Proof.Machine.execFunctionLevelReset tenancy s
  | .deviceReset => Sys2Proof.Machine.execDeviceReset s
  | .deviceBoot failures => Sys2Proof.Machine.execDeviceBoot failures s
  | .bootRecordClear unit => Sys2Proof.Machine.execBootRecordClear unit s
  | .membershipSign body verifies => Sys2Proof.Machine.execMembershipSign body verifies s
  | .weightSet loom tenancy weight => Sys2Proof.Machine.execWeightSet loom tenancy weight s
  | .partitionAssign tenancy clusters => Sys2Proof.Machine.execPartitionAssign tenancy clusters s
  | .keySlotLoad slot key => Sys2Proof.Machine.execKeySlotLoad slot key s
  | .domainJoin domain device => Sys2Proof.Machine.execDomainJoin domain device s
  | .controllerRefreshEnd loom bank => Sys2Proof.Machine.execControllerRefreshEnd loom bank s

end Sys2Proof.Machine
end

