-- ==== Sys2Proof/Machine/Events.lean ====
section
/-!
DEFINITION. What happens when: the events that are due in a cycle, the agents whose turn comes, the end of a cycle, and a
word placed to be issued next. Step puts them in order. Within a cycle the device's units act first, then the merges of the
looms in ascending number and the stream sequencers, then the handler starts, the ends of the engines' chunks and the timeouts
(R20, R156, R252, R386). A chunk whose `endsAt` is a cycle has the cycle before it as its last.
-/

namespace Sys2Proof.Machine

/-! ## Due events of one loom -/

/-- Has a time come? -/
def due (x : Option Nat) (cycle : Nat) : Bool :=
  match x with
  | some c => c ≤ cycle
  | none => false
/-- An event when a condition holds. -/
def eventIf (b : Bool) (i : Instr) : Option Instr := if b then some i else none
/-- The first event of a list. -/
def firstEvent (l : List (Option Instr)) : Option Instr := l.findSome? id
/-- Does a chunk of an engine end by a cycle? -/
def Loom.chunkEnds (l : Loom) (e : Engine) (cycle : Nat) : Bool :=
  (l.cmds e).any (fun c => due (c.chunk.map (·.endsAt)) cycle)
/-- The end of a transfer, by its kind. -/
noncomputable def transferEvent (n : Nat) (t : Transfer) : Instr :=
  if t.move.isAllocation then .allocationComplete n
  else if t.move.isMaterialise then .overlayMaterialise n
  else .spindleTransferComplete n
/-- Sequencers of a loom for which a condition holds. -/
def Loom.seqsWith (l : Loom) (f : Seq → Bool) : List Nat := (l.seqs.filter (fun p => f p.2)).map (·.1)
/-- Is a sequencer's armed wait due to time out? -/
def Seq.timeoutDue (q : Seq) (cycle : Nat) : Bool :=
  match q.status with
  | .waiting (.barrier _ _ x true) => due x cycle
  | _ => false
/-- The bank and row group of a loom whose refresh deadline has come, if any. -/
def Loom.refreshDue (l : Loom) (cycle : Nat) : Option (Nat × Nat) :=
  ((l.runs.flatMap (fun p => p.2.ownBanks)).flatMap (fun b => (List.range 8).map (fun g => (b, g)))).find? (fun x =>
    match l.bankOwner x.1 with
    | some (_, r, _) => due (l.deadline r x.1 x.2) cycle
    | none => false)
/-- Does a loom's quantum machinery act: a quantum has run out with somebody to give way to or a new one to begin, or the
loom is free and a tenancy waits (R285)? -/
def Loom.quantumDue (l : Loom) (cycle : Nat) : Bool :=
  l.switching.isNone && match l.holder with
  | some _ => l.quantumEnds ≤ cycle
  | none => l.usable cycle && (l.nextTenancy l.lastHolder).isSome
/-- Does a requested switch go on: all stand at their switch points, or the saving has ended? -/
def Loom.switchDue (l : Loom) (cycle : Nat) : Bool :=
  match l.switching with
  | none => false
  | some w => w.restoresAt.isNone && match w.savesAt with
    | none => l.allReached w && !l.orphanGoesOn
    | some c => c ≤ cycle
/-- Has a rank of a reduction waited too long, and not said so (R363)? -/
def Loom.patienceOver (l : Loom) (cycle : Nat) : Bool :=
  (l.cmds .shuttle).any (fun c => c.waitsLong cycle)
/-- Events of an engine that are due, its chunks' ends apart. -/
noncomputable def Loom.engineEvent (l : Loom) (n cycle : Nat) (e : Engine) : Option Instr :=
  firstEvent
    [eventIf (l.completes e).isSome (.engineCommandComplete n e),
     eventIf (l.serves e cycle).isSome (.chunkGrant n e)]
/-- The first event due on a loom, or at the Shuttle port of a stream sequencer. -/
noncomputable def Loom.event (l : Loom) (n cycle : Nat) : Option Instr :=
  let seq := fun (f : Seq → Bool) (g : Nat → Instr) => ((l.seqsWith f).head?).map g
  firstEvent
    ([l.transfer.bind (fun t => eventIf (t.endsAt ≤ cycle) (transferEvent n t)),
      eventIf (l.portDue.isSome) (.partialSumArrival n),
      eventIf (l.arriving ≠ []) (.arrivalUpdate n),
      eventIf (due (l.shared.head?.map (·.endsAt)) cycle) (.sharedBankServe n)] ++
     engines.map (l.engineEvent n cycle) ++
     [seq (fun q => due q.replaying cycle) (fun q => .subnormalReplay n q),
      (l.refreshDue cycle).map (fun x => .refreshDeadline n x.1 x.2),
      (List.find? (fun (p : Nat × BankState) => due p.2.refreshEnds cycle) l.banks).map (fun p => .controllerRefreshEnd n p.1),
      eventIf (l.switchDue cycle) (.fullSwitch n),
      eventIf (due (l.switching.bind (·.restoresAt)) cycle) (.switchInComplete n),
      eventIf (l.quantumDue cycle) (.quantumExpiry n),
      eventIf (due l.resetEnds cycle) (.loomResetComplete n),
      eventIf (l.patienceOver cycle) (.reducePartnerTimeout n)])

/-! ## Due events of the device -/

/-- Does an allocator of a cluster act for its stalled requests? -/
def State.tagActs (s : State) (k : Nat) : Bool :=
  match s.tagService (k / 64) (k % 64) with
  | .none => false
  | _ => true
/-- The first event due at an allocator. -/
noncomputable def State.tagEvent (s : State) (k : Nat) (a : Allocator) : Option Instr :=
  firstEvent
    [(a.ops.find? (fun o => o.endsAt ≤ s.cycle)).map (fun o => .tagFreed (k / 64) (k % 64) (BitVec.ofNat 12 o.tag)),
     eventIf (a.stalled ≠ [] && s.tagActs k) (.tagGrant (k / 64) (k % 64))]
/-- May a waiting launch begin (R283)? -/
def State.mayBegin (s : State) (id : Nat) (x : Launch) : Bool :=
  match Tab.find? (s.tenancy x.tenancy).images x.image with
  | none => false
  | some img => s.placeable id x img
/-- The event due of a launch. -/
noncomputable def State.launchEvent (s : State) (id : Nat) (x : Launch) : Option Instr :=
  match x.phase with
  | .reading _ e => eventIf (e ≤ s.cycle) (.launchBlockReadDone id .ok)
  | .backingOff _ e => eventIf (e ≤ s.cycle) (.launchBlockRefetch id)
  | .copying _ e => eventIf (e ≤ s.cycle) (.launchCopiesDone id .ok)
  | .waiting => eventIf (s.mayBegin id x) (.launchStart id)
  | .running => eventIf (s.launchOver id x) (.launchComplete id)
  | .ending => eventIf (s.launchOver id x) (.launchComplete id)
  | .ended => none
/-- Has the word that a tenancy's waitw watches changed, or does the read of it meet an error? -/
def State.wordChanged (s : State) (t : Nat) (x : Tenancy) : Bool :=
  match x.stream.status with
  | .waiting (.watch d v _) =>
    let e := s.window t (farWindow d)
    let a := winTarget e (farOffset d)
    BitVec.ofNat 64 (leNat (s.streamBytes t d 8)) != v || s.unreachable (winKind e) a ||
      (s.checkFar (stackOf (streamPort t)) (winKind e) (winPeer e) (s.keyOf e) (linesOf a 8)).1.isSome
  | _ => false
/-- The first event due of a tenancy. -/
noncomputable def State.tenancyEvent (s : State) (t : Nat) (x : Tenancy) : Option Instr :=
  firstEvent
    [eventIf (s.wordChanged t x) (.watchedWordChange t),
     eventIf (due x.stream.replaying s.cycle) (.subnormalReplay (streamPort t) 0),
     eventIf (due (x.snapshot.map (·.endsAt)) s.cycle) (.snapshotComplete t 1),
     eventIf (due (x.dump.map (·.endsAt)) s.cycle) (.dumpComplete t)]
/-- The event due of a far read: its completion, or its timeout. -/
noncomputable def farReadEvent (id : Nat) (r : FarRead) (cycle : Nat) : Option Instr :=
  firstEvent
    [eventIf (r.endsAt ≤ cycle) (.farReadCompletion id .ok),
     eventIf (r.issued + Config.completionTimeout ≤ cycle) (.farCompletionTimeout id)]
/-- The first event that is due in this cycle, before its merges. -/
noncomputable def State.dueEvent (s : State) : Option Instr :=
  firstEvent
    [s.looms.findSome? (fun p => p.2.event p.1 s.cycle),
     s.allocators.findSome? (fun p => s.tagEvent p.1 p.2),
     s.farQueues.findSome? (fun p => eventIf (due (p.2.head?.map (·.endsAt)) s.cycle) (.farWritePerform p.1 true)),
     s.farReads.findSome? (fun p => farReadEvent p.1 p.2 s.cycle),
     s.launches.findSome? (fun p => s.launchEvent p.1 p.2),
     s.tenancies.findSome? (fun p => s.tenancyEvent p.1 p.2)]
/-- Has a loom a message whose handler can start, or whose launch has gone? -/
def Loom.handlerDue (l : Loom) : Bool :=
  match l.nextMessage with
  | none => false
  | some m =>
    match l.run m.launch with
    | none => true
    | some r => (l.dormantOf r).isSome
/-- The ends of the chunks whose last cycle this is. -/
noncomputable def Loom.retireEvent (l : Loom) (n cycle : Nat) : Option Instr :=
  firstEvent (engines.map (fun e => eventIf (l.chunkEnds e (cycle + 1)) (.chunkRetire n e)))
/-- What follows the merges of a cycle: the handler starts, after its spawns (R20); what the chunks write that end with it, in agent
order (R156, R252); and the timeouts, after every completion of it (R386). -/
noncomputable def State.lateEvent (s : State) : Option Instr :=
  firstEvent
    [s.looms.findSome? (fun p => eventIf p.2.handlerDue (.handlerStart p.1)),
     s.looms.findSome? (fun p => p.2.retireEvent p.1 s.cycle),
     s.looms.findSome? (fun p => ((p.2.seqsWith (fun q => q.timeoutDue s.cycle)).head?).map (fun q => .waitTimeout p.1 q))]
/-- Is an external event an access to a virtual function: to its registers, its aperture, or its reset? -/
def ofFunction (i : Instr) : Bool :=
  match i with
  | .spcWrite .. | .shalt .. | .sresume .. | .sresumeRelaunch .. | .snapgo .. | .registerWrite .. | .dbgloomWrite .. | .dbgresume ..
  | .compWrite .. | .dumpgo .. | .fltack .. | .fltretry .. | .fltend .. | .hostReadRequest .. | .functionLevelReset .. => true
  | .hostPostedWrite w => !w.toHost
  | _ => false
/-- Is an external event one that this start has nobody to take: in recovery there is the physical function alone and no tenancy, and
without the PCIe link no virtual function is reached (R401, R402)? -/
def State.bars (s : State) (i : Instr) : Bool := (s.boot.recovery || s.linkDown) && ofFunction i
/-- The oldest external event whose cycle has come, of those that somebody takes. -/
def State.takeArrival (s : State) : Option (Instr × State) :=
  match s.arrivals.dropWhile (fun a => a.1 ≤ s.cycle && s.bars a.2) with
  | [] => none
  | (c, i) :: rest => if c ≤ s.cycle then some (i, { s with arrivals := rest }) else none

/-! ## Turns -/

/-- The agent of a turn's number. -/
def agentOf (n : Nat) : Issuer := if n < 1280 then .loom n else .stream (n - 1280)
/-- Has a loom a sequencer that could issue? -/
def Loom.hasActive (l : Loom) : Bool := l.seqs.any (fun p => p.2.status ≠ .dormant)
/-- Does a stream sequencer take a turn? -/
def Tenancy.takesTurn (t : Tenancy) : Bool := t.streamState ≠ 0 && t.streamState ≠ 3 && t.stream.status = .ready
/-- The agent whose turn it is: one whose pick or turn is in progress, or the next one with something to issue. -/
def State.nextIssuer (s : State) : Option Issuer :=
  match s.issue with
  | some i => some i.agent
  | none =>
    let n := s.turn.agent
    if s.turn.stage ≠ 0 then some (agentOf n)
    else
      match List.find? (fun (p : Nat × Loom) => n ≤ p.1 && p.1 < 1280 && p.2.hasActive) s.looms with
      | some p => some (.loom p.1)
      | none =>
        (List.find? (fun (p : Nat × Tenancy) => n ≤ streamPort p.1 && p.1 < 64 && p.2.takesTurn) s.tenancies).map
          (fun p => .stream p.1)

/-! ## The end of a cycle -/

/-- Did another sequencer bind a slot last in this cycle? -/
def LoomRun.reboundBy (r : LoomRun) (seq slot : Nat) : Bool :=
  ((r.rebound.filter (fun x => x.1 = slot)).getLast?).any (fun x => x.2.1 ≠ seq)
/-- A stopped pick, or a resumed one, keeps the earlier binding of a slot that it has bound until another sequencer's binding of the
slot is in force (R407). -/
def Loom.settleBound (l : Loom) (seq : Nat) (q : Seq) : Seq :=
  let keep := fun (st : Stop) => { st with bound := st.bound.filter (fun b => !(l.run q.launch).any (fun r => r.reboundBy seq b.1)) }
  { q with
    status := match q.status with
      | .stopped st => .stopped (keep st)
      | x => x
    resuming := q.resuming.map keep }
/-- Bindings of this cycle are in force, and comparator writes (R297, R407). -/
def Loom.settleCycle (l : Loom) : Loom :=
  let l1 := if l.runs.any (fun p => p.2.rebound ≠ []) then
      { l with seqs := List.map (fun (p : Nat × Seq) => (p.1, l.settleBound p.1 p.2)) l.seqs }
    else l
  ({ l1 with runs := Tab.map l1.runs (fun r => { r with rebound := [] }) } : Loom).applyComps
/-- The pins of picks end with their cycle, waiters are granted, and every Spindle with a waiter and no transfer goes on (R53, R56,
R305). -/
def State.settleSpindles (s : State) : State :=
  s.looms.foldl (fun s p => if p.2.waiters = [] then s else (s.updLoom p.1 Loom.grantReady).spindle p.1) s.unpinPicks
/-- Holds a launch of its holder a loom still, one that has not been reset (R396)? -/
def State.heldBy (s : State) (l : Loom) (t : Nat) : Bool := l.runs.any (fun p => p.2.tenancy = t && !s.wasReset p.1)
/-- A loom-cycle for each loom that a launch holds (C24, R289). -/
def State.countLooms (s : State) : State :=
  s.looms.foldl (fun s p => match p.2.holder with
    | some t => if s.heldBy p.2 t then s.count p.1 t 24 1 else s
    | none => s) s
/-- The cycle ends: the launches that its records end are over, its records are written, what it counted is in the counters, and the
next begins. -/
def State.endCycle (s : State) : State :=
  let s1 := s.endLaunches.settleLanding.settleSpindles.retireCounts.writeRecords
  let s2 := { s1 with looms := Tab.map s1.looms Loom.settleCycle }
  let s3 := s2.agePosted
  ({ s3 with cycle := s3.cycle + 1, turn := Turn.start } : State).countLooms

/-! ## A word placed to be issued (log 21) -/

/-- The pick in progress that holds one slot. -/
def issueOfWord (a : Issuer) (lane : Lane) (w : Word) : Issue :=
  { agent := a, seq := 0, pick := 0, bytes := 16, stop := true, present := 1#14 <<< lane.index, done := 0#14
    todo := [{ lane := lane, word := w, lent := none, held := false, count := 0, offset := 0 }], cut := none, writes := []
    link := false, control := .fallThrough, rep := false, index := 0, resumed := false, trapCode := none, halt := false
    yields := false, after := none, zadd := none, scaled := [], vaultBank := none, bound := [] }
/-- The pick store that holds a pick of one slot. -/
def picksOfWord (lane : Lane) (w : Word) : Tab Word :=
  let ws := pickOfSlot lane w none
  (ws.zipIdx.filter (fun p => p.1 ≠ 0#32)).map (fun p => (p.2, p.1))
/-- A launch of tenancy 0 on loom 0 whose image is one pick. -/
def runOfWord (lane : Lane) (w : Word) : LoomRun :=
  { tenancy := 0, segs := [], overlays := [], handSeg := 0, handOverlay := none, budget := 65536, bindings := [], observed := []
    rebound := [], jacquard := none, picks := picksOfWord lane w, pickBytes := 16, uses := 3#16, rank := 0, loomset := 0
    spillShare := 0, spillBase := 0, pmax := some 1, nodeBound := some 1, spillWindow := 0, windowBytes := 0, chunk := 0x10001000#64, band := 0, quota := 4095
    records := [(0, Seq.reset)], firstStep := none, lateWindows := [], bandReported := false, stallReported := false, placed := 0, suspended := false }
/-- The launch itself. -/
def launchOfWord : Launch :=
  { tenancy := 0, image := 0, place := 0, token := 0, block := 0#64, blockBytes := [], args := [], pick := 0#64, step := 0
    phase := .running, looms := [0], accepted := none, stalled := [], faulted := false }
/-- Is a word one of the forms that only a stream sequencer issues? -/
def isStreamWord (lane : Lane) (w : Word) : Bool :=
  match checkSlot lane w none with
  | .ok x => lane = .cf && streamForms.contains x.m
  | .error _ => false
/-- A slot word about to issue: as the pick in progress of sequencer 0 of loom 0, in a launch of tenancy 0, or of tenancy
0's stream sequencer for a form of its own. -/
def State.placeWord (s : State) (nbits w : Nat) : State :=
  let x : Word := BitVec.ofNat 32 (w % 2 ^ nbits)
  let lane := (tableLane x).getD .sa
  let active := Seq.activated 0 0#64 [] (if isStreamWord lane x then streamRecord else Seq.reset) s.cycle
  if isStreamWord lane x then
    let s1 := s.updTenancy 0 (fun t => { t with stream := active, streamState := 1 })
    { s1 with
      issue := some (issueOfWord (.stream 0) lane x), cur := { Cur.none with loom := 1280, stream := some 0 }
      turn := { Turn.start with agent := 1280, stage := 2, issued := [0] } }
  else
    let s1 := s.updLoom 0 (fun l => { l with
      runs := Tab.put l.runs 0 (runOfWord lane x), seqs := Tab.put l.seqs 0 active, holder := some 0 })
    { s1 with
      launches := Tab.put s1.launches 0 launchOfWord, nextLaunch := 1
      issue := some (issueOfWord (.loom 0) lane x), cur := Cur.none
      turn := { Turn.start with stage := 2, issued := [0] } }

end Sys2Proof.Machine
end

