-- ==== Sys2Proof/Machine/Step.lean ====
section
/-!
DEFINITION. One step of the device: one slot of the pick in progress, or one event, or the end of a cycle.
-/

namespace Sys2Proof.Machine

/-- What follows a slot's meaning in its step. -/
def afterExec (o : Host.Outcome State Fault Refusal) (t : Todo) : Host.Outcome State Fault Refusal :=
  match o with
  | .next s => .next (s.afterSlot t)
  | .fault f => .fault f
  | .refused r => .refused r
/-- The step of a slot that has been taken up: the instruction that its bits decode to. A slot that the checks of its pick
have passed always decodes. -/
noncomputable def stepSlot (t : Todo) (s : State) : Host.Outcome State Fault Refusal :=
  match decodeSlot t.lane t.word t.lent with
  | .ok i => afterExec (exec i s) t
  | .error code => .next (s.stopSlot code 1 0#64)
/-- The step of an external event. Only an event arrives from outside; a slot comes from a pick. -/
noncomputable def stepArrival (i : Instr) (s : State) : Host.Outcome State Fault Refusal :=
  if i.slot.isSome then .next s else exec i s
/-- The step of the device's own: an event that is due, a turn of a merge, what follows the merges, the end of the cycle. -/
noncomputable def stepUnits (s : State) : Host.Outcome State Fault Refusal :=
  match s.dueEvent with
  | some i => exec i s
  | none =>
    match s.nextIssuer with
    | some a => exec (.pickIssue a) s
    | none =>
      match s.lateEvent with
      | some i => exec i s
      | none => .next s.endCycle
/-- One step. -/
noncomputable def step (s : State) : Host.Outcome State Fault Refusal :=
  match s.takeSlot with
  | some (t, s1) => stepSlot t s1
  | none =>
    match s.takeArrival with
    | some (i, s1) => stepArrival i s1
    | none => stepUnits s

/-- A state whose very next step issues a slot word: its lane is the one the decoder reads it in (log 14). -/
def State.withFetchWord (s : State) (nbits w : Nat) : State := s.placeWord nbits w

end Sys2Proof.Machine
end

