-- ==== Sys2Proof/Safety.lean ====
section
/-!
DEFINITION. What a safe state and a safe run are, in the terms that claims use: every memory is in its canonical form, and
a run never ends outside `next`.
-/

namespace Sys2Proof.Safety

/-- Every memory of a launch's segments on a loom is in its canonical form. -/
def runSafe (r : Machine.LoomRun) : Bool :=
  r.segs.all (fun p => Memory.wf p.2.data) && r.overlays.all (fun o => Memory.wf o.data)
/-- The memories of a loom are in canonical form. -/
def loomSafe (l : Machine.Loom) : Bool := Memory.wf l.vault && l.runs.all (fun p => runSafe p.2)
/-- What the images of a tenancy give their segments at a launch is in canonical form (R44). -/
def imagesSafe (t : Machine.Tenancy) : Bool :=
  t.images.all (fun i => i.2.segs.all (fun g => Memory.wf (g.init.getD [])))
/-- The memories of the device, and what it holds of the host, its peers and the images, are in canonical form. -/
def memorySafe (s : Machine.State) : Bool :=
  Memory.wf s.tier2 && Memory.wf s.host && s.peers.all (fun p => Memory.wf p.2) && s.looms.all (fun p => loomSafe p.2) &&
  s.tenancies.all (fun p => imagesSafe p.2)
/-- k steps all answer a next state. -/
def runsOn (k : Nat) (s : Machine.State) : Prop :=
  match k with
  | 0 => True
  | k + 1 => ∃ t, Machine.step s = .next t ∧ runsOn k t

end Sys2Proof.Safety
end

