-- ==== Sys2Proof/Certificates/Slice0/Obligations.lean ====
section
/-!
DEFINITION. The statements for the provers. `Claims` holds the few words that several of them share: a read of one byte of
each memory, and what a state shares with an earlier one.
-/

namespace Sys2Proof.Claims
open Sys2Proof.Machine

/-- One byte of a launch's segment on a loom, as a read under a tag finds it; none where the loom holds no such launch. -/
def localByte (s : State) (l id seg tag off : Nat) : Option Byte := ((s.loom l).run id).map (fun r => r.cell seg tag off)
/-- One byte of a loom's vault. -/
def vaultByte (s : State) (l a : Nat) : Byte := Memory.read (s.loom l).vault a
/-- One byte of tier-2 memory, of host memory, and of a peer's memory. -/
def tier2Byte (s : State) (a : Nat) : Byte := Memory.read s.tier2 a
def hostByte (s : State) (a : Nat) : Byte := Memory.read s.host a
def peerByte (s : State) (p a : Nat) : Byte := Memory.read (Tab.get s.peers p []) a
/-- Every byte of far memory and of every vault reads as before. -/
def farAsBefore (s t : State) : Prop :=
  (∀ l a, vaultByte t l a = vaultByte s l a) ∧ (∀ a, tier2Byte t a = tier2Byte s a) ∧
  (∀ a, hostByte t a = hostByte s a) ∧ (∀ p a, peerByte t p a = peerByte s p a)
/-- Every byte of every memory reads as before. -/
def memoryAsBefore (s t : State) : Prop :=
  (∀ l id seg tag off, localByte t l id seg tag off = localByte s l id seg tag off) ∧ farAsBefore s t
/-- Every register of a sequencer, and where it stands: all but its results in flight and the notes of its group. -/
def registersAsBefore (q p : Seq) : Prop :=
  (∀ r, p.rdS r = q.rdS r) ∧ (∀ r, p.rdV r = q.rdV r) ∧ (∀ r, p.rdQ r = q.rdQ r) ∧ p.dt = q.dt ∧ p.ct = q.ct ∧
  p.li = q.li ∧ p.sl = q.sl ∧ p.rmm = q.rmm ∧ p.nanSeen = q.nanSeen ∧ p.frm = q.frm ∧ p.vclosed = q.vclosed ∧
  p.shape = q.shape ∧ p.window = q.window ∧ p.pc = q.pc ∧ p.loops = q.loops ∧ p.held = q.held ∧ p.steps = q.steps ∧
  p.status = q.status
/-- A pick is in progress. -/
def inPick (s : State) : Prop := s.issue.isSome = true
/-- What an engine slot needs to issue (R354): its tokens are set, its checks pass and its queue has room. -/
def engineReady (s : State) (e : Engine) (wm : BitVec 8) : Prop :=
  s.me.seesTokens wm = true ∧ (s.loom s.cur.loom).full e = false

/-- One operation's code and flags are another's. -/
def sameResult (r x : Rounded) : Prop := r.code = x.code ∧ r.flags = x.flags
/-- (−1)^neg · m · 2^x over 2^z, an integer where z is at most x. -/
def units (neg : Bool) (m : Nat) (x z : Int) : Int := 
  if neg then -((m * 2 ^ (x - z).toNat : Nat) : Int) else (m * 2 ^ (x - z).toNat : Nat)
/-- The order of two numbers, none a NaN: −∞ below every finite one, +∞ above, and finite ones by their values. -/
def below (a b : Machine.Num) : Prop :=
  match a, b with
  | .inf p, .inf q => p = true ∧ q = false
  | .inf p, .fin _ _ _ => p = true
  | .fin _ _ _, .inf q => q = false
  | .fin p m x, .fin q n y => units p m x (min x y) < units q n y (min x y)
  | _, _ => False
/-- minimumNumber of two numbers, or with `most` maximumNumber (R97): of two numbers the lesser or the greater, −0 below +0; of a number
and a NaN the number; of two NaNs a NaN; invalid is raised exactly for a signalling one. -/
def takesOne (a b : Machine.Num) (most : Bool) (r : Exact) : Prop :=
  r.flags = flagIf (a.isSignalling || b.isSignalling) flagInvalid ∧
  (a.isNan = true → b.isNan = true → r.num = .nan false) ∧
  (a.isNan = true → b.isNan = false → r.num = b) ∧ (a.isNan = false → b.isNan = true → r.num = a) ∧
  (a.isNan = false → b.isNan = false → (r.num = a ∨ r.num = b) ∧
    (below a b → r.num = if most then b else a) ∧ (below b a → r.num = if most then a else b) ∧
    (¬below a b → ¬below b a →
      r.num.negative = if most then a.negative && b.negative else a.negative || b.negative))
/-- One node of the pairwise tree over x (R104): node i of a level combines nodes 2i and 2i + 1 of the level below it. -/
def treeNode (op : Nat → Nat → Rounded) (x : Nat → Nat) (level i : Nat) : Nat :=
  match level with
  | 0 => x i
  | k + 1 => (op (treeNode op x k (2 * i)) (treeNode op x k (2 * i + 1))).code
/-- Element i of the chain over x (R105). -/
def chainAt (op : Nat → Nat → Rounded) (x : Nat → Nat) (i : Nat) : Nat :=
  match i with
  | 0 => x 0
  | k + 1 => (op (chainAt op x k) (x (k + 1))).code
/-- What rounding a number to an integer of a range gives, with its flags (R98). -/
def roundsToInt (mode : BitVec 2) (low high : Int) (a : Machine.Num) (v : Int) (flags : BitVec 5) : Prop :=
  (a.isNan = true → v = 0 ∧ flags = flagInvalid) ∧
  (∀ p, a = .inf p → v = (if p then low else high) ∧ flags = flagInvalid) ∧
  (∀ p m x, a = .fin p m x →
    let i : Int := if p then -((roundAt mode p m x 0).1 : Int) else (roundAt mode p m x 0).1
    v = max low (min i high) ∧ flags = if v = i then flagIf (roundAt mode p m x 0).2 flagInexact else flagInvalid)
/-- What converting a number to a floating-point format gives (R96, R98): one rounding, clamped to the largest finite value
where SAT holds and it overflows. -/
def convertsTo (f : Fmt) (mode : BitVec 2) (sat : Bool) (a : Machine.Num) (r : Rounded) : Prop :=
  let sign := fun (p : Bool) => if p then f.signBit else 0
  (∀ g, a = .nan g → r.code = f.canonical ∧ r.flags = flagIf g flagInvalid) ∧
  (∀ p, a = .inf p → r.code = if sat then f.maxCode + sign p else (match f.infCode with
    | some c => c + sign p
    | none => f.canonical)) ∧
  (∀ p m x, a = .fin p m x →
    let e := f.round mode p m x
    if sat && e.flags.getLsbD 2 then r.code = f.maxCode + sign p else sameResult r e)
/-- A slot writes elements of a vector register, `lat` steps later: element k holds r k, where that is something; the other
bits keep their values. The flags of the written elements join fflags, and `count` element operations are counted when the
result lands (R167, R185). -/
def writesElements (s : State) (i : Instr) (d lat size n : Nat) (r : Nat → Option Rounded) (counter count : Nat) : Prop :=
  ∃ mask value : VReg,
    exec i s = .next ((((s.raise ((List.range n).foldl (fun f k => f ||| ((r k).map (·.flags)).getD 0#5) 0#5)).result
      (.v d) lat mask value)).countLater counter lat count) ∧
    ∀ b, b < 1024 → mask.getLsbD b = (decide (b < size * n) && (r (b / size)).isSome) ∧
      (∀ x, b < size * n → r (b / size) = some x → value.getLsbD b = x.code.testBit (b % size))
/-- The bits of a register that elements 0 to n − 1 fill, each with its value. -/
def holdsElements (mask value : VReg) (size n : Nat) (f : Nat → Nat) : Prop :=
  ∀ b, b < 1024 → mask.getLsbD b = decide (b < size * n) ∧
    (b < size * n → value.getLsbD b = (f (b / size)).testBit (b % size))
/-- A slot writes bits of a predicate register two steps later: bit k holds f k where `on` holds; the other bits keep their
values. -/
def writesPredicate (s : State) (i : Instr) (d : Nat) (flags : BitVec 5) (on f : Nat → Bool) : Prop :=
  ∃ (mask value : VReg) (t : State),
    exec i s = .next (t.result (.q d) 2 mask value) ∧ (t = s.raise flags ∨ flags = 0#5 ∧ t = s) ∧
    ∀ k, k < 128 → mask.getLsbD k = on k ∧ (on k = true → value.getLsbD k = f k)

/-- The pick in progress makes further writes, and nothing else changes: they perform when every slot of it has read
(R192). -/
def writesQueued (s : State) (k : Issue) (ws : List PickWrite) : State :=
  { s with issue := some { k with writes := k.writes ++ ws } }
/-- The offset of the Segment form (R190), with the hidden offset of a held slot (R34). -/
def offsetOf (s : State) (o : BitVec 6) (imm6 : BitVec 6) (scale : Nat) : Nat :=
  (s.rS o).toNat + imm6.toNat * scale + s.cur.offset
/-- An access of one run of cells. -/
def runAccess (seg tag off size align : Nat) (write : Bool) : Access :=
  { seg := seg, tag := tag, offs := [off], size := size, align := align, write := write }
/-- The lines of an access hold no error: the state after their checks is `s1` (R370). -/
def readsClean (s : State) (a : Access) (s1 : State) : Prop :=
  s.checkLines s.cur.loom s.me.launch s.myTenancy a.seg a.tag a.lines = (none, s1)
/-- The bytes that a plain read of the pick finds in its launch's segment: in the rest of a stopped pick none that the pick has written
already (R253). -/
def bytesAt (s : State) (seg tag off n : Nat) : List Byte :=
  (List.range n).map (fun j =>
    (((s.loom s.cur.loom).run s.me.launch).map (fun r => (r.unseen s.keptBytes).cell seg tag (off + j))).getD 0#8)
/-- The low bytes of a register hold a list of bytes, and the other bits keep their values. -/
def holdsBytes (mask value : VReg) (bs : List Byte) : Prop :=
  ∀ b, b < 1024 → mask.getLsbD b = decide (b < 8 * bs.length) ∧
    (b < 8 * bs.length → value.getLsbD b = (bs.getD (b / 8) 0#8).getLsbD (b % 8))
/-- A slot that reads a run of cells: with no fault and no error in its lines, its result lands `lat` steps later, and is
what `ok` says of the bytes. -/
def loads (s : State) (i : Instr) (seg tag off size : Nat) (d : Dest) (lat : Nat) (ok : VReg → VReg → List Byte → Prop) : Prop :=
  ∀ s1, s.myFault (runAccess seg tag off size size false) = none → readsClean s (runAccess seg tag off size size false) s1 →
    ∃ mask value : VReg, exec i s = .next (s1.result d lat mask value) ∧ ok mask value (bytesAt s seg tag off size)
/-- A slot that stores bytes at an offset under ct: with no fault, the pick makes the write. -/
def stores (s : State) (k : Issue) (i : Instr) (seg off size : Nat) (bs : List Byte) : Prop :=
  s.myFault (runAccess seg s.rTag off size size true) = none →
    exec i s = .next (writesQueued s k [.segment seg s.rTag off bs])
/-- Byte j of a word. -/
def byteOf {w : Nat} (x : BitVec w) (j : Nat) : Byte := x.extractLsb' (8 * j) 8

/-- The writes of a list reach their targets: where one's target is in reach, its bytes read back there, unless a later one of
the list, or one that follows, has written its line. -/
def writesLand (s t : State) (ws after : List FarWrite) : Prop :=
  ∀ pre w post, ws = pre ++ w :: post → s.unreachable w.kind w.addr = false → w.addr + w.bytes.length ≤ 2 ^ 64 →
    (∀ v ∈ post ++ after, v.addr + v.bytes.length ≤ 2 ^ 64 ∧
      ∀ i j, i < w.bytes.length → j < v.bytes.length → (v.addr + j) / 64 ≠ (w.addr + i) / 64) →
    ∀ j, j < w.bytes.length → t.farByte w.kind w.peer w.key (w.addr + j) = w.bytes.getD j 0#8
/-- Every earlier access of a loom has performed at a scope (R82, R264, R266): no access waits at a shared bank of its cluster,
the bytes of each write stand there, unless a later one has written them, and no landing of an active sequencer waits for a read; from device
scope upward the queue of its stack is empty, and its writes have reached their targets; below it what stays in the queue
can no longer be refused (R384). -/
def performedEarlier (s t : State) (l scope : Nat) : Prop :=
  let queue := Tab.get s.farQueues (l / 320) []
  (∀ o ∈ loomsOf (l / 16), (t.loom o).shared = [] ∧ ∀ pre (a : SharedAccess) post, (s.loom o).shared = pre ++ a :: post →
    (a.write = true → (∀ b ∈ post, b.write = true →
        b.addr + b.bytes.length ≤ a.addr ∨ a.addr + a.bytes.length ≤ b.addr) →
      ∀ j, j < a.bytes.length → vaultByte t o (a.addr + j) = a.bytes.getD j 0#8) ∧
    (a.write = false → (s.seq a.fromLoom a.seq).launch = a.launch → (s.seq a.fromLoom a.seq).status ≠ .dormant →
      ∀ f ∈ (t.seq a.fromLoom a.seq).flight, f.data ≠ .awaited a.id)) ∧
  (3 ≤ scope → Tab.get t.farQueues (l / 320) [] = [] ∧ writesLand s t queue []) ∧
  (scope < 3 → Tab.get t.farQueues (l / 320) [] =
    (queue.filter (fun w => !s.unreachable w.kind w.addr)).map (fun w => { w with settled := true }))
/-- A command enters its engine's queue, last: the sequencer's tokens of its wait mask are cleared, and no register and no
byte of memory changes (R211). -/
def enqueues (s : State) (i : Instr) (e : Engine) (wm : BitVec 8) (ok : Cmd → Prop) : Prop :=
  ∃ (t : State) (c : Cmd), exec i s = .next t ∧ (t.loom s.cur.loom).cmds e = (s.loom s.cur.loom).cmds e ++ [c] ∧
    c.launch = s.me.launch ∧ c.seq = s.cur.seq ∧ c.pick = s.cur.pick ∧ c.step = s.cur.step ∧ c.stamp = s.cycle ∧
    c.tag = BitVec.ofNat 12 s.rTag ∧ c.cursor = 0#64 ∧ ok c ∧ t.me.dt = s.me.dt &&& ~~~wm ∧
    (∀ r, t.me.rdS r = s.me.rdS r) ∧ (∀ r, t.me.rdV r = s.me.rdV r) ∧ (∀ r, t.me.rdQ r = s.me.rdQ r) ∧
    t.me.pc = s.me.pc ∧ t.me.status = s.me.status ∧ t.issue = s.issue ∧ memoryAsBefore s t
/-- An engine slot whose checks give `fault` (R211, R354, R360): it stops with 0x607 when a token of its mask never comes,
waits while one is outstanding, stops with its fault, holds its pick while the queue is full, and else enters its command. -/
def engineSlot (s : State) (i : Instr) (e : Engine) (wm : BitVec 8) (fault : Option Nat) (ok : Cmd → Prop) : Prop :=
  let unset := fun (k : Nat) => k < 8 ∧ wm.getLsbD k = true ∧ s.me.dtView.getLsbD k = false
  let full := 16 ≤ ((s.loom s.cur.loom).cmds e).length
  ((∀ k, ¬unset k) → fault = none → ¬full → enqueues s i e wm ok) ∧
  ((∀ k, ¬unset k) → ∀ code, fault = some code → exec i s = .next (s.stopSlot code 1 0#64)) ∧
  ((∀ k, ¬unset k) → fault = none → full → exec i s = .next { s with issue := none }) ∧
  ((∃ k, unset k ∧ s.outstanding k = false) → exec i s = .next (s.stopSlot 0x607 1 0#64)) ∧
  ((∃ k, unset k) → (∀ k, unset k → s.outstanding k = true) →
    exec i s = .next { s.updMe (fun q => { q with status := .waiting (.tokens wm) }) with issue := none })
/-- The token that a command of mx or sh sets. -/
def tokenNamed (tk : BitVec 4) (token : Option Nat) : Prop :=
  (tk.getLsbD 3 = true → token = some (tk.toNat % 8)) ∧ (tk.getLsbD 3 = false → token = none)
/-- An event answers a next state of which something holds. -/
def gives (s : State) (i : Instr) (ok : State → Prop) : Prop := ∃ t, exec i s = .next t ∧ ok t
/-- One record more is detected for a tenancy; it is written when the cycle ends (R312, R313). -/
def oneRecord (s t : State) (tenancy : Nat) : Prop :=
  ∃ r : FaultRecord, t.detected = s.detected ++ [(tenancy, r)]

/-- A chunk of an engine ends, with no fault in what it has read and no loom of it lost: `c` is its command, at place i of the queue, and
`u` the state in which its effects are made (R55, R323, R369). -/
def chunkEnds (s : State) (l : Nat) (e : Engine) (i : Nat) (c : Cmd) (k : Chunk) (u : State) : Prop :=
  let s0 := s.updCmd l e i (fun c => { c with chunk := none, requested := some (s.cycle + if e = .matrix then 1 else 2) })
  let reach := s0.chunkReach l e c k
  l < 1344 ∧ ((s.loom l).cmds e).zipIdx.find? (fun p => p.1.chunk.isSome) = some (c, i) ∧ c.chunk = some k ∧ c.done = false ∧
  s.launchReset l c.launch = false ∧ s.lostPeer l c (s0.allReach l e c k) = false ∧
  ∃ s1, s0.reachReads l c.launch (s.cmdTenancy l c) false reach.1 = (none, s1) ∧
    s1.reachReads l c.launch (s.cmdTenancy l c) true reach.2 = (none, u)
/-- The overlays of a launch lie under tags and lines that exist. -/
def overlaysInRange (s : State) (id : Nat) : Prop :=
  ∀ o r, (s.loom o).run id = some r → ∀ v ∈ r.overlays, v.tag < 4096 ∧ v.line < 65536
/-- One byte of a place, as the Shuttle of a loom finds it. -/
def placeByte (s : State) (l : Nat) (c : Cmd) (p : Place) (j : Nat) : Byte :=
  match p with
  | .seg o g off => (localByte s o c.launch g c.tag.toNat (off + j)).getD 0#8
  | .far d =>
    let e := s.window (s.cmdTenancy l c) (farWindow d)
    (s.farSeen (stackOf l) (winKind e) (winPeer e) (s.keyOf e) (winTarget e (farOffset d + j)) 1).headD 0#8
  | .bank w => vaultByte s (wordOwner l w) (wordAddr w + j)
  | .pattern b => c.rs.extractLsb' (8 * ((b + j) % 8)) 8
/-- Is there a place to read: its launch's part of the loom, or bytes of a shared bank that no other tenancy's launch has left there? -/
def readable (s : State) (l : Nat) (c : Cmd) (p : Place) (n : Nat) : Prop :=
  match p with
  | .seg o _ _ => (s.loom o).run c.launch ≠ none
  | .bank w => ∀ j, j < n → (s.loom (wordOwner l w)).foreign (s.cmdTenancy l c) (s.placedAt l c.launch) (wordAddr w + j) = false
  | _ => True
/-- Is there a place to write: a declared segment, or a target in reach? -/
def canTake (s : State) (l : Nat) (c : Cmd) (p : Place) (n : Nat) : Prop :=
  match p with
  | .seg o g off => off + n ≤ 4194304 ∧ ∃ r x, (s.loom o).run c.launch = some r ∧ Tab.find? r.segs g = some x
  | .far d =>
    let e := s.window (s.cmdTenancy l c) (farWindow d)
    winKind e ≠ 0 ∧ s.unreachable (winKind e) (winTarget e (farOffset d)) = false ∧
      (winKind e = 3 → ∀ w ∈ Tab.get s.farQueues (stackOf l) [], w.kind ≠ 3)
  | .bank _ => True
  | .pattern _ => False
/-- n bytes of one place and m of another share none. -/
def apart (l : Nat) (p : Place) (n : Nat) (q : Place) (m : Nat) : Prop :=
  match p, q with
  | .seg o g x, .seg o' g' y => o = o' → g = g' → x + n ≤ y ∨ y + m ≤ x
  | .bank x, .bank y => wordOwner l x = wordOwner l y → wordAddr x + n ≤ wordAddr y ∨ wordAddr y + m ≤ wordAddr x
  | .far d, .far e => farWindow d = farWindow e → farOffset d + n ≤ farOffset e ∨ farOffset e + m ≤ farOffset d
  | _, _ => True
/-- Byte y of a segment lies among n bytes of a place. -/
def covers (p : Place) (n o g y : Nat) : Prop :=
  match p with
  | .seg o' g' off => o' = o ∧ g' = g ∧ off ≤ y ∧ y < off + n
  | _ => False
/-- The beats of a chunk that ends, each with the row index that the chunk was granted with (R226, R356). -/
def beatsOf (s : State) (l : Nat) (c : Cmd) (k : Chunk) : List BeatAt :=
  ((s.chunkBeats l c k.units).zip (k.index ++ List.replicate 4096 0)).map (fun p => { p.1 with index := p.2 })
/-- Row and byte at which the beat after another stands. -/
def afterBeat (c : Cmd) (b : BeatAt) : Nat × Nat :=
  if shapeBytes c.rn ≤ b.byte + b.n then (b.row + 1, 0) else (b.row, b.byte + b.n)
/-- The ranks' values after the stages below k of R106's loop over n ranks. -/
def rankStages (op : Nat → Nat → Nat) (n : Nat) (x : Nat → Nat) (k : Nat) : Nat → Nat :=
  match k with
  | 0 => x
  | k + 1 => fun r =>
    let y := rankStages op n x k
    if r % 2 ^ (k + 1) = 0 ∧ r + 2 ^ k < n then op (y r) (y (r + 2 ^ k)) else y r
/-- The exact sum of two numbers, with the sign of a zero and the flags (R95 to R97). -/
def addsExactly (a b : Machine.Num) (mode : BitVec 2) (r : Exact) : Prop :=
  (a.isNan = true ∨ b.isNan = true → r = ⟨.nan false, flagIf (a.isSignalling || b.isSignalling) flagInvalid⟩) ∧
  (∀ p q, a = .inf p → b = .inf q → r = if p = q then ⟨.inf p, 0#5⟩ else ⟨.nan false, flagInvalid⟩) ∧
  (∀ p q n y, (a = .inf p ∧ b = .fin q n y) ∨ (a = .fin q n y ∧ b = .inf p) → r = ⟨.inf p, 0#5⟩) ∧
  (∀ p m x q n y, a = .fin p m x → b = .fin q n y → ∃ neg k z, r = ⟨.fin neg k z, 0#5⟩ ∧ z ≤ x ∧ z ≤ y ∧
    units neg k z z = units p m x z + units q n y z ∧ (k = 0 → neg = if p = q then p else decide (mode = 2#2)))
/-- The exact product of two numbers, with its flags. -/
def multipliesExactly (a b : Machine.Num) (r : Exact) : Prop :=
  (a.isNan = true ∨ b.isNan = true → r = ⟨.nan false, flagIf (a.isSignalling || b.isSignalling) flagInvalid⟩) ∧
  ((a.isInf = true ∧ b.isZero = true) ∨ (a.isZero = true ∧ b.isInf = true) → r = ⟨.nan false, flagInvalid⟩) ∧
  (a.isNan = false → b.isNan = false → (a.isInf = true ∧ b.isZero = false) ∨ (a.isZero = false ∧ b.isInf = true) →
    r = ⟨.inf (a.negative != b.negative), 0#5⟩) ∧
  (∀ p m x q n y, a = .fin p m x → b = .fin q n y → ∃ k z, r = ⟨.fin (p != q) k z, 0#5⟩ ∧ z ≤ x + y ∧
    k = m * n * 2 ^ (x + y - z).toNat)
/-- The exact a · b + c, its product not rounded. -/
def fusesExactly (a b c : Machine.Num) (mode : BitVec 2) (r : Exact) : Prop :=
  let nan := a.isNan || b.isNan || c.isNan
  let void := (a.isInf && b.isZero) || (a.isZero && b.isInf)
  let sign := a.negative != b.negative
  ((nan || void) = true → r = ⟨.nan false, flagIf (a.isSignalling || b.isSignalling || c.isSignalling || void) flagInvalid⟩) ∧
  ((nan || void) = false → (a.isInf || b.isInf) = true →
    r = if c.isInf && c.negative != sign then ⟨.nan false, flagInvalid⟩ else ⟨.inf sign, 0#5⟩) ∧
  ((nan || void) = false → (a.isInf || b.isInf) = false → ∀ p, c = .inf p → r = ⟨.inf p, 0#5⟩) ∧
  (∀ p m x q n y g w v, a = .fin p m x → b = .fin q n y → c = .fin g w v → ∃ neg k z, r = ⟨.fin neg k z, 0#5⟩ ∧ z ≤ x + y ∧ z ≤ v ∧
    units neg k z z = units (p != q) (m * n) (x + y) z + units g w v z ∧
    (k = 0 → neg = if (p != q) = g then g else decide (mode = 2#2)))
end Sys2Proof.Claims

open Sys2Proof Sys2Proof.Machine Sys2Proof.Claims

/-! ## Encoding (spec/07) -/

/-- Decoding what the encoder writes gives the instruction back: for every well-formed slot operation, every value of its
operands, and every lane that the tables list it for (R114 to R121). -/
def Obligations.SlotsDecodeAsEncoded : Prop :=
  ∀ (i : Instr) (lane : Lane), i.wf = true → lane ∈ i.lanes →
    decodeSlot lane (encodeWord i) (encodeLent i) = .ok i

/-- Whatever a slot decodes to is well formed, stands in a lane that its table lists it for, and has that very word: no bit
of the word is dropped (R328, R329). -/
def Obligations.DecodedSlotsAreLegal : Prop :=
  ∀ (lane : Lane) (w : Word) (lent : Option (BitVec 10)) (i : Instr), decodeSlot lane w lent = .ok i →
    i.wf = true ∧ lane ∈ i.lanes ∧ encodeWord i = w


/-- Words that the manual writes out decode to what it writes beside them. -/
def Obligations.WordsOfTheManualDecode : Prop :=
  decodeSlot .sa 0x02187001#32 none = .ok (.addImm ⟨false, 3#6, 3#6, 1#22⟩) ∧
  decodeSlot .cf 0x2000002A#32 none = .ok (.trap 42#8) ∧
  decodeSlot .cf 0x16083000#32 none = .ok (.arrive 4#8 1#4)


/-! ## One step (spec/02) -/

/-- A step takes the next slot of the pick in progress, decodes its bits and runs the instruction that they decode to: the
state is exec's answer, after which the slot's hold, the done mask and, after the last slot, the end of the pick follow
(`afterSlot`). A slot that stopped its pick ends it. -/
def Obligations.StepRunsTheDecodedSlot : Prop :=
  ∀ (s : State) (k : Issue) (x : Todo) (rest : List Todo) (i : Instr),
    s.issue = some k → k.todo = x :: rest → decodeSlot x.lane x.word x.lent = .ok i →
    step s = (match exec i { s.atSlot x with issue := some { k with todo := rest } } with
      | .next t => .next (t.afterSlot x)
      | .fault f => .fault f
      | .refused r => .refused r)

/-- Between slots a step brings, in this order: an outside event whose cycle has come; an event of the device that is due;
the turn of the next merge; what follows the merges; and else the end of the cycle, which advances it by one (log 8). -/
def Obligations.StepBringsEventsInOrder : Prop :=
  ∀ (s : State), s.takeSlot = none →
    (∀ (i : Instr) (t : State), s.takeArrival = some (i, t) → i.slot = none → step s = exec i t) ∧
    (s.takeArrival = none → ∀ i, s.dueEvent = some i → step s = exec i s) ∧
    (s.takeArrival = none → s.dueEvent = none → ∀ a, s.nextIssuer = some a → step s = exec (.pickIssue a) s) ∧
    (s.takeArrival = none → s.dueEvent = none → s.nextIssuer = none → ∀ i, s.lateEvent = some i → step s = exec i s) ∧
    (s.takeArrival = none → s.dueEvent = none → s.nextIssuer = none → s.lateEvent = none → step s = .next s.endCycle)

/-- Every memory of the device and of what it reaches keeps its canonical form at every step: addresses strictly rising,
and no entry equal to what an unlisted address reads as (log 2). -/
def Obligations.StepKeepsMemoryCanonical : Prop :=
  ∀ (s t : State), Safety.memorySafe s = true → step s = .next t → Safety.memorySafe t = true

/-- What a chunk that ends does (R55), and for the Shuttle: the beats that it moves go on from the cursor, one after another (R226).
A moved beat of copy, mcast, fill, gthr, sctr, vxfer, copyb or post stands at each of its destinations (Table 12.7): the bytes that its source
held, where no earlier beat of the chunk has written the source and no later one the destination, so that of rows that sctr writes
more than once the higher remains; no other byte of a segment changes. A copyb takes the chunk's bytes from PB, and writes a record below
0 (R227); a post sends its message once its bytes stand (R229); a reduce writes the answer of its beat, which every rank has, the
tree result over the ranks' contributions (R106, R228); recall and pushout are done (R230). The cursor goes on, and after the last row the
command is done. Of a post or a copyb with a far write only a target in reach is spoken of, as of any. A byte of a shared bank that a running launch of
another tenancy left is not spoken of (log 78). -/
def Obligations.TransferChunksMoveTheirBytes : Prop :=
  (∀ (s u : State) (l i : Nat) (e : Engine) (c : Cmd) (k : Chunk), chunkEnds s l e i c k u →
    exec (.chunkRetire l e) s = .next ((u.retireChunk l e i c k).pinAll c.launch k.pins false)) ∧
  (∀ (s u : State) (l i : Nat) (c : Cmd) (k : Chunk), chunkEnds s l .shuttle i c k u → overlaysInRange u c.launch →
    let t := u.retireChunk l .shuttle i c k
    let leaves := fun (ok : Cmd → Prop) => ∃ d, ((t.loom l).cmds .shuttle)[i]? = some d ∧ ok d
    let at_ := fun (row byte : Nat) => BitVec.ofNat 64 (row * 2 ^ 32 + byte)
    let goesOn := fun (b : BeatAt) (d : Cmd) => d.cursor = at_ (afterBeat c b).1 (afterBeat c b).2 ∧
      (d.done = true ↔ shapeRows c.rn ≤ (d.cursor.extractLsb' 32 16).toNat)
    (c.op ∈ [Mnemonic.copy, .mcast, .fill, .gthr, .sctr, .vxfer, .copyb, .post] →
      let bs := beatsOf u l c k
      let v := if c.op = .vxfer then u.serveAll (wordOwner l c.rs) else u
      let dests := fun (b : BeatAt) => if b.index < 2 ^ 31 then (c.beatPlaces l b).2 else []
      let source := fun (b : BeatAt) => (c.beatPlaces l b).1
      let object := Place.seg (ownerOf l c.rn1) (descSeg c.rn1) (descOff c.rn1)
      let ref : BarrierRef := { loom := ownerOf l c.rn1, seg := descSeg c.rn1, off := descOff c.rn1 }
      let bytes := (bs.map (fun b => b.n)).sum
      (∀ b, bs.head? = some b → b.row = (c.cursor.extractLsb' 32 16).toNat ∧ b.byte = (c.cursor.extractLsb' 0 32).toNat) ∧
      (∀ b ∈ bs, b.n = min 32 (shapeBytes c.rn - b.byte)) ∧
      (∀ (j : Nat) (a b : BeatAt), bs[j]? = some a → bs[j + 1]? = some b → afterBeat c a = (b.row, b.byte)) ∧
      (∀ b, bs.getLast? = some b → leaves (goesOn b)) ∧
      (bs ≠ [] → (∀ b ∈ bs, ∀ p ∈ dests b, canTake u l c p b.n) →
        (∀ (j : Nat) (b : BeatAt) (p : Place), bs[j]? = some b → p ∈ dests b → readable v l c (source b) b.n →
          (∀ (m : Nat) (a : BeatAt), m < j → bs[m]? = some a → ∀ q ∈ dests a, apart l q a.n (source b) b.n) →
          (∀ (m : Nat) (a : BeatAt), j < m → bs[m]? = some a → ∀ q ∈ dests a, apart l q a.n p b.n) →
          (c.op = .copyb → apart l p b.n object 16) →
          ∀ y, y < b.n → placeByte t l c p y = placeByte v l c (source b) y) ∧
        (∀ o id g tg y, (∀ b ∈ bs, ∀ p ∈ dests b, ¬covers p b.n o g y) → (c.op = .copyb → ¬covers object 16 o g y) →
          localByte t o id g tg y = localByte u o id g tg y) ∧
        (∀ o, c.op = .copyb → u.barrierAt c.launch ref = some o → canTake u l c object 16 →
          (∀ b ∈ bs, ∀ p ∈ dests b, apart l p b.n object 16) → 1 ≤ o.exp → o.exp < 2 ^ 16 → o.arr ≤ o.exp → o.pb < 2 ^ 36 →
          t.barrierAt c.launch ref = some (o.credit bytes).1 ∧
          (o.pb < bytes → ∃ x r, t.detected = x ++ [(u.cmdTenancy l c, r)])) ∧
        (c.op = .post → (t.loom (ownerOf l c.rd)).landing = (u.loom (ownerOf l c.rd)).landing ++
          [{ launch := c.launch, entry := (c.rn1.extractLsb' 0 18).toNat, payload := c.rd }]))) ∧
    (∀ (b : BeatAt) (bs : List Byte), c.op = .reduce → (u.chunkBeats l c 1).head? = some b → c.answer = some bs →
      let p := placeAt l c.rd (b.row * shapePitch c.rn + b.byte)
      canTake u l c p bs.length → leaves (fun d => goesOn b d ∧ d.answer = none) ∧
        (∀ y, y < bs.length → placeByte t l c p y = bs.getD y 0#8) ∧
        (∀ o id g tg y, ¬covers p bs.length o g y → localByte t o id g tg y = localByte u o id g tg y)) ∧
    (c.op = .recall ∨ c.op = .pushout → leaves (fun d => d.done = true) ∧ memoryAsBefore u t)) ∧
  (∀ (s : State) (l p x i : Nat) (c q : Cmd) (bs : List Byte), p < groupSize c.rn1 →
    s.rankAt l c p = some (s.deviceNumber.toNat, x) → s.reduceOf x (s.cmdTenancy l c) (groupId c.rn1) p = some (i, q) →
    ∃ d, (((s.answerAll l c bs).loom x).cmds .shuttle)[i]? = some d ∧ d.answer = some bs) ∧
  (∀ (g : DWord) (xs : List (List Byte)) (n m : Nat), 1 ≤ n → n < 2 ^ 16 → xs.length = n → (∀ x ∈ xs, x.length = m * reduceBytes g) →
    ∀ e, e < m →
      let element := fun (bs : List Byte) => leNat ((bs.drop (e * reduceBytes g)).take (reduceBytes g))
      element (reduceBeat g xs) = rankStages (rankOp g) n (fun r => element (xs.getD r [])) 17 0) ∧
  (∀ (g : DWord) (x y : Nat), x < 2 ^ 32 → y < 2 ^ 32 →
    let f := fun (n : Nat) => binary32.decode n
    (g.extractLsb' 0 2 = 0#2 → reduceBytes g = 4 ∧ rankOp g x y = (((f x).add (f y) 0#2).round binary32 0#2).code) ∧
    (g.extractLsb' 0 2 = 1#2 → reduceBytes g = 2 ∧ rankOp g x y = (((bf16.decode x).add (bf16.decode y) 0#2).round bf16 0#2).code) ∧
    (g.extractLsb' 0 2 = 2#2 → reduceBytes g = 4 ∧ rankOp g x y = (x + y) % 2 ^ 32) ∧
    (g.extractLsb' 0 2 = 3#2 → reduceBytes g = 4 ∧ rankOp g x y = (((f x).minMax (f y) true).round binary32 0#2).code))

/-- Right after reset: every memory is in canonical form; the cycle is 0; every sequencer of every loom and every stream sequencer is dormant; no launch
exists; every loom's drift limit is 0xFFFF_FFFF, its DBGCTL 0 and its trace count 0 (R294); DBGLOOM reads 0x7FF (R294);
the fault store is empty, with FLTSTAT zero (R313); STATE of every stream is 0; every window is unmapped (Table 16.4). -/
def Obligations.ResetStateOfTheDevice : Prop :=
  Safety.memorySafe State.reset = true ∧ State.reset.cycle = 0 ∧ State.reset.launches = [] ∧ State.reset.issue = none ∧
  (∀ l q, (State.reset.seq l q).status = .dormant) ∧
  (∀ l t, ((State.reset.loom l).debugOf t).drift = 0xFFFFFFFF#32 ∧ ((State.reset.loom l).debugOf t).ctl = 0#64) ∧
  (∀ l, (State.reset.loom l).trace = [] ∧ (State.reset.loom l).traceCounts = []) ∧
  (∀ t, (State.reset.tenancy t).stream.status = .dormant ∧ (State.reset.tenancy t).streamState = 0 ∧
    (State.reset.tenancy t).dbgloom = 0x7FF#11 ∧ (State.reset.tenancy t).faults = [] ∧
    (State.reset.tenancy t).fltWr = 0 ∧ (State.reset.tenancy t).fltCount = 0 ∧ (State.reset.tenancy t).fltLost = 0) ∧
  State.reset.detected = [] ∧ State.reset.ends = [] ∧
  (∀ t w, winKind (State.reset.window t w) = 0)

/-! ## Registers and results (spec/02) -/


/-- A result of latency L from the pick at step n enters the in-flight results with landing step n + L, and until it lands
every register reads as before (R25). The register is one that no earlier slot of the same group writes.
Results become visible in the order of the steps at which they land; of two that land at one step, the later-issued
remains (R26). The bits that a landing writes hold its value when no due landing to the register follows it in that order;
a register to which no landing is due keeps its value, and only landings that are not due stay in flight. s0 reads as zero and
q0, q8 and q16 as all-true, and a result for one of them changes nothing (Table 2.1). -/
def Obligations.ResultsLandInStepOrder : Prop :=
  (∀ (s : State) (d : Dest) (lat : Nat) (mask value : VReg),
      s.me.group.find? (fun g => g.dest == d) = none →
      registersAsBefore s.me (s.result d lat mask value).me ∧
      (∃ l : Landing, (s.result d lat mask value).me.flight = s.me.flight ++ [l] ∧
        l.step = s.cur.step + lat ∧ l.dest = d ∧ l.mask = mask ∧ l.value = value ∧ l.data = .yes) ∧
      (s.result d lat mask value).me.fflags = s.me.fflags ∧
      memoryAsBefore s (s.result d lat mask value)) ∧
  (∀ (q : Seq), q.dueReturned = true →
    (∀ (pre post : List Landing) (l : Landing), q.flight = pre ++ l :: post → l.step ≤ q.steps →
      (∀ m ∈ pre, m.dest = l.dest → m.step ≤ q.steps → m.step ≤ l.step) →
      (∀ m ∈ post, m.dest = l.dest → m.step ≤ q.steps → m.step < l.step) →
      (∀ r, l.dest = .s r → r ≠ 0 → q.land.rdS r = l.value.extractLsb' 0 64) ∧
      (∀ r n, l.dest = .v r → n < 1024 → l.mask.getLsbD n = true → (q.land.rdV r).getLsbD n = l.value.getLsbD n) ∧
      (∀ r n, l.dest = .q r → r % 8 ≠ 0 → n < 128 → l.mask.getLsbD n = true →
        (q.land.rdQ r).getLsbD n = l.value.getLsbD n)) ∧
    (∀ r, (∀ m ∈ q.flight, m.dest = .s r → q.steps < m.step) → q.land.rdS r = q.rdS r) ∧
    (∀ r, (∀ m ∈ q.flight, m.dest = .v r → q.steps < m.step) → q.land.rdV r = q.rdV r) ∧
    (∀ r, (∀ m ∈ q.flight, m.dest = .q r → q.steps < m.step) → q.land.rdQ r = q.rdQ r) ∧
    q.land.flight = q.flight.filter (fun m => ¬ m.step ≤ q.steps)) ∧
  (∀ (q : Seq) (mask value : VReg),
    q.rdS 0 = 0#64 ∧ q.rdQ 0 = BitVec.allOnes 128 ∧ q.rdQ 8 = BitVec.allOnes 128 ∧ q.rdQ 16 = BitVec.allOnes 128 ∧
    q.deliver (.s 0) mask value = q ∧ q.deliver (.q 0) mask value = q ∧ q.deliver (.q 8) mask value = q ∧
    q.deliver (.q 16) mask value = q)

/-- What the end of a chunk does for the matrix engine and for the Jacquard. A slice of a product adds to every element of its rows and
columns the block sum of its blocks, rounded once (R101 to R103, R216, R217): the products are cut off at 2^−60 of the greatest one and added
exactly. A scaled command keeps its sums for the port (R222). mmaz begins with +0. mmag takes its rows from its count word, 0 of
which complete at once and more than 128 stop it with 0x606 (R216, R362). mzero clears its tile, mload and mdrain
move a row, converted (R219). Every other element, and every byte that mdrain does not name, stays. The products count (R221).
The units of a Jacquard chunk leave their bytes in the bound segments, and those of jexp and jsat their bits at the destination; the
cursor counts units (R240). A unit that stops ends the command; one that asks for a collection parks it and sends its handler's message
(R248, R361). jref, jdrf, jclr and jstat do what R242 and R247 say of them. -/
def Obligations.EngineChunksGiveTheirEffect : Prop :=
  (∀ (s u : State) (l i : Nat) (c : Cmd) (k : Chunk), chunkEnds s l .matrix i c k u → overlaysInRange u c.launch →
    let t := u.retireChunk l .matrix i c k
    let leaves := fun (ok : Cmd → Prop) => ∃ d, ((t.loom l).cmds .matrix)[i]? = some d ∧ ok d
    let elem := fun (v : State) (r j : Nat) => Tab.get (v.loom l).acc (c.ac * 16384 + r * 128 + j) 0#32
    let elsewhere := ∀ key, key / 16384 ≠ c.ac → Tab.get (t.loom l).acc key 0#32 = Tab.get (u.loom l).acc key 0#32
    let da := c.args.headD 0#64
    let db := c.args.getD 1 0#64
    let dc := c.args.getD 2 0#64
    let here := fun (d : DWord) => (u.loom (ownerOf l d)).run c.launch ≠ none
    let cells := fun (d : DWord) (off n : Nat) => (List.range n).map (fun x =>
      (localByte u (ownerOf l d) c.launch (descSeg d) c.tag.toNat (off + x)).getD 0#8)
    (c.isProduct = true → (c.op = .mmag → c.begun = true ∨ c.startsSlice = true) → c.rows ≤ 128 → shapeN c.shape ≤ 128 →
      here da → here db →
      let n := (c.cursor.extractLsb' 0 32).toNat
      let groups := (shapeN c.shape + 31) / 32
      let a := fun (r : Nat) => (List.range 32).map (blockElem c.fa (cells da (natOff (c.offA (n / groups) r)) (blockBytes c.fa)))
      let b := fun (j : Nat) => (List.range 32).map (blockElem c.fb (cells db (c.offB (n / groups) j) (blockBytes c.fb)))
      let columns := (List.range (shapeN c.shape)).filter (fun j => j / 32 = n % groups)
      let clears := c.op = .mmaz ∧ n = 0
      let start := fun (r j : Nat) => if clears ∧ r < c.rows ∧ j < shapeN c.shape then 0#32 else elem u r j
      let ends := fun (d : Cmd) => d.cursor = BitVec.ofNat 64 (n + 1) ∧ d.begun = true
      let last := shapeK c.shape * groups ≤ n + 1
      let adds := (∀ r j, r < 128 → j < 128 → elem t r j =
        if r < c.rows ∧ j ∈ columns then portAdd (start r j) (blockSum (a r) (b j)) 0 else start r j)
      elsewhere ∧ memoryAsBefore u t ∧
      (let key := u.cmdTenancy l c * 32 + c.fa
       Tab.get (t.loom l).counting key 0 = Tab.get (u.loom l).counting key 0 + c.rows * columns.length * 32) ∧
      (c.scaled = none → adds ∧ leaves (fun d => ends d ∧ (d.done = true ↔ last))) ∧
      (∀ sc, c.scaled = some sc → sc.orphaned = true → adds ∧ leaves (fun d => ends d ∧ (d.done = true ↔ last))) ∧
      (∀ sc, c.scaled = some sc → sc.orphaned = false → (∀ r j, r < 128 → j < 128 → elem t r j = start r j) ∧
        leaves (fun d => ends d ∧ d.done = false ∧ d.scaled = some { sc with
          formed := n + 1
          sums := sc.sums ++ [(List.range c.rows).flatMap (fun r => columns.map (fun j => (r, j, blockSum (a r) (b j))))] }))) ∧
    (c.op = .mmag → c.begun = false → c.startsSlice = false → here dc →
      let m := leNat (cells dc (descOff dc) 4)
      (m ≤ 128 → leaves (fun d => d.rows = m ∧ d.begun = true ∧ (d.done = true ↔ m = 0)) ∧ (t.loom l).acc = (u.loom l).acc ∧
        memoryAsBefore u t) ∧
      (128 < m → t = u.stopChunk l .matrix i c (0x606, 1, operandOf (descSeg dc) c.tag.toNat (descOff dc)))) ∧
    (c.op = .mzero → leaves (fun d => d.done = true) ∧ (∀ r j, r < 128 → j < 128 → elem t r j = 0#32) ∧ elsewhere ∧
      memoryAsBefore u t) ∧
    (c.op = .mload ∨ c.op = .mdrain → here da →
      let r := (c.cursor.extractLsb' 32 16).toNat
      let size := tileFmtBytes c.fa
      let n := shapeBytes db / size
      let off := descOff da + r * shapePitch db
      r < 128 → n ≤ 128 → leaves (fun d => d.cursor = BitVec.ofNat 64 ((r + 1) * 2 ^ 32) ∧ (d.done = true ↔ shapeRows db ≤ r + 1)) ∧
      (c.op = .mload → elsewhere ∧ memoryAsBefore u t ∧ ∀ x j, x < 128 → j < 128 → elem t x j =
        if x = r ∧ j < n then loadElem c.fa (leNat (cells da (off + j * size) size)) else elem u x j) ∧
      (c.op = .mdrain → canTake u l c (.seg (ownerOf l da) (descSeg da) off) (n * size) → (t.loom l).acc = (u.loom l).acc ∧
        (∀ j y, j < n → y < size → localByte t (ownerOf l da) c.launch (descSeg da) c.tag.toNat (off + j * size + y) =
          some ((leBytes size (drainElem c.fa (elem u r j))).getD y 0#8)) ∧
        (∀ o id g tg y, ¬covers (.seg (ownerOf l da) (descSeg da) off) (n * size) o g y →
          localByte t o id g tg y = localByte u o id g tg y)))) ∧
  (∀ (as bs : List Machine.Num), as.length = bs.length →
    let pairs := as.zip bs
    let void := fun (p : Machine.Num × Machine.Num) => p.1.isNan || p.2.isNan || (p.1.isInf && p.2.isZero) || (p.1.isZero && p.2.isInf)
    let sign := fun (p : Machine.Num × Machine.Num) => p.1.negative != p.2.negative
    let infinite := fun (g : Bool) => ∃ p ∈ pairs, (p.1.isInf || p.2.isInf) = true ∧ sign p = g
    let ps := pairs.filterMap (fun p => match p with
      | (.fin p m x, .fin q n y) => if m * n = 0 then none else some (p != q, m * n, x + y)
      | _ => none)
    let top := fun (p : Bool × Nat × Int) => p.2.2 + (p.2.1.log2 : Int)
    ((∃ p ∈ pairs, void p = true) → blockSum as bs = .nan) ∧
    ((∀ p ∈ pairs, void p = false) →
      (infinite true → infinite false → blockSum as bs = .nan) ∧ (∀ g, infinite g → ¬infinite (!g) → blockSum as bs = .inf g) ∧
      (¬infinite true → ¬infinite false → (ps = [] → blockSum as bs = .fin 0 0) ∧
        (∀ p ∈ ps, (∀ o ∈ ps, top o ≤ top p) →
          let q := top p - 60
          let cut := fun (o : Bool × Nat × Int) => o.2.1 * 2 ^ (o.2.2 - q).toNat / 2 ^ (q - o.2.2).toNat
          blockSum as bs = .fin ((ps.map (fun o => if o.1 then -(cut o : Int) else (cut o : Int))).sum) q)))) ∧
  (∀ (acc : Word) (e : Int), let x := binary32.decode acc.toNat
    portAdd acc .nan e = 0x7FC00000#32 ∧
    (∀ g, portAdd acc (.inf g) e = BitVec.ofNat 32 ((x.add (.inf g) 0#2).round binary32 0#2).code) ∧
    (∀ v q, portAdd acc (.fin v q) e =
      BitVec.ofNat 32 ((x.add (.fin (decide (v < 0)) v.natAbs (q + e)) 0#2).round binary32 0#2).code)) ∧
  (∀ (f x : Nat), x < 2 ^ 32 →
    let v := binary32.decode x
    let drains := fun (f : Nat) (g : Fmt) (sat : Bool) => ∃ r, convertsTo g 0#2 sat v r ∧ drainElem f (BitVec.ofNat 32 x) = r.code
    let int := (BitVec.ofNat 32 x).toInt
    drainElem 0 (BitVec.ofNat 32 x) = x ∧ drains 1 bf16 false ∧ drains 2 binary16 false ∧ drains 3 e4m3 true ∧ drains 4 e5m2 true ∧
    (∃ i flags, roundsToInt 0#2 (-2147483648) 2147483647 v i flags ∧ drainElem 5 (BitVec.ofNat 32 x) = (BitVec.ofInt 32 i).toNat) ∧
    loadElem 0 x = BitVec.ofNat 32 x ∧ loadElem 5 x = BitVec.ofNat 32 (binary32.round 0#2 (decide (int < 0)) int.natAbs 0).code ∧
    ∀ g, (f, g) ∈ [(1, bf16), (2, binary16), (3, e4m3), (4, e5m2)] →
      ∃ r, convertsTo binary32 0#2 false (g.decode x) r ∧ loadElem f x = BitVec.ofNat 32 r.code) ∧
  (∀ (s u v : State) (l i : Nat) (c : Cmd) (k : Chunk) (b : JBinding) (run : LoomRun), chunkEnds s l .jacquard i c k u →
    overlaysInRange u c.launch → u.jbinding l c = some b → (u.loom l).run c.launch = some run →
    let orders := c.op = .jcfg ∨ c.op = .jord
    let order := if orders then u.orderOf l c.launch b else b.levels
    let store := u.jstore l c.launch b
    let store := { store with
      levels := if c.op = .jcfg then [] else store.levels
      reads := if orders then orderReads c b else store.reads }
    let handler := if c.op = .jcfg then b.handler else (store.mem.getD 0 []).readNat 20 4
    let work := if c.work.begun then c.work else c.freshWork
    let r := junits k.units c order handler store work (c.cursor.extractLsb' 0 32).toNat
    let segs := [b.node, b.unique, b.cache, b.weight, b.order]
    let d := c.args.getD 1 0#64
    let dest := fun (a : Nat) => Place.seg (ownerOf l d) (descSeg d) (descOff d + a)
    let t := u.retireChunk l .jacquard i c k
    segs.Nodup → (∀ g ∈ segs, (Tab.find? run.segs g).isSome = true) → u.jerrors l c.launch run.tenancy b r.1 = (none, v) →
    u.outError l c r.1 = none → (∀ o ∈ r.1.out, canTake u l c (dest o.1) 1) →
    (r.1.out ≠ [] → ownerOf l d = l → descSeg d ∉ segs) →
    ∃ w : State,
      (∀ j g y, segs[j]? = some g → localByte w l c.launch g 0 y = some (Memory.read (r.1.mem.getD j []) y)) ∧
      (∀ o id g tg y, ¬(o = l ∧ id = c.launch ∧ g ∈ segs) → (∀ x ∈ r.1.out, ¬covers (dest x.1) 1 o g y) →
        localByte w o id g tg y = localByte u o id g tg y) ∧
      (∀ x ∈ r.1.out, placeByte w l c (dest x.1) 0 = (r.1.out.filter (fun o => o.1 = x.1)).foldl
        (fun m o => (m &&& ~~~o.2.1) ||| o.2.2) (placeByte u l c (dest x.1) 0)) ∧
      (∃ d, ((w.loom l).cmds .jacquard)[i]? = some d ∧ d.cursor = BitVec.ofNat 64 r.2.2.1 ∧ d.work = r.2.1 ∧
        d.done = r.2.1.finished) ∧
      (r.2.2.2 = none → t = w) ∧
      (∀ code operand reads, r.2.2.2 = some (.fault code operand reads) →
        t = w.stopChunk l .jacquard i { c with cursor := BitVec.ofNat 64 r.2.2.1 } (code, 1, BitVec.ofNat 64 operand)) ∧
      (∀ reason reads, r.2.2.2 = some (.collect reason reads) →
        (c.again = true → t = w.stopChunk l .jacquard i { c with cursor := BitVec.ofNat 64 r.2.2.1 }
          (0x708, 1, BitVec.ofNat 64 reason)) ∧
        (c.again = false →
          let m : Message := { launch := c.launch, entry := ((r.1.mem.getD 0 []).readNat 20 4) % 2 ^ 18,
                               payload := BitVec.ofNat 64 (reason + 16 * c.seq) }
          ((t.loom l).landing = (u.loom l).landing ++ [m] ∨
            ∃ x, (t.loom l).landingWaits = (u.loom l).landingWaits ++ [x] ∧ x.message = m ∧ x.since = u.cycle) ∧
          ∃ d, ((t.loom l).cmds .jacquard)[i]? = some d ∧ d.parked = true ∧ d.again = true ∧ d.cursor = 0#64 ∧
            d.work.stack = []))) ∧
  (∀ (c : Cmd) (order : List Nat) (handler : Nat) (w : JWork) (x : JStore), x.mem.length = 5 →
    let node := x.mem.getD 0 []
    let f := c.jid 0
    let gives := fun (result : Nat) (ok : JStore → Prop) => ∃ w1 y, (junit c order handler w).run x = .ok (w1, y) ∧
      w1.finished = true ∧ w1.acc = BitVec.ofNat 64 result ∧ ok y
    let ref := node.readNat (16 * f + 12) 2
    let sets := fun (n : Nat) (y : JStore) => (y.mem.getD 0 []).readNat (16 * f + 12) 2 = n ∧
      ∀ g a, ¬(g = 0 ∧ 16 * f + 12 ≤ a ∧ a < 16 * f + 14) → Memory.read (y.mem.getD g []) a = Memory.read (x.mem.getD g []) a
    let less := if ref = 0xFFFF then ref else ref - 1
    (c.op = .jref → gives (min (ref + 1) 0xFFFF) (sets (min (ref + 1) 0xFFFF))) ∧
    (c.op = .jdrf → gives less (fun y => sets less y ∧ (ref = 0 → y.notes = x.notes ++ [(0x70B, f)]))) ∧
    (c.op = .jclr → gives 0 (fun y => (∀ a, Memory.read (y.mem.getD 2 []) a = 0#8) ∧
      ∀ g a, g ≠ 2 → Memory.read (y.mem.getD g []) a = Memory.read (x.mem.getD g []) a)) ∧
    (c.op = .jstat → ∀ n, n < 7 → f % 16 = n →
      gives ([node.readNat 8 4, node.readNat 4 4, node.readNat 0 4, x.nv, x.buckets, x.entries, x.capacity].getD n 0)
        (fun y => y.mem = x.mem)))

/-- The state of a sequencer that becomes active: s1 to sN hold the arguments, every other scalar, every vector register
and every token is zero, the predicates but q0, q8 and q16 are all-false, ct, li, sl, rmm, fflags, frm, the loop stack, the
holds, sys.stepcount and sys.vclosed are zero or empty, the shape and window state are zero, and sys.prio is the level
declared for it (R17). The arguments are at most the 63 registers that can hold them. -/
def Obligations.ActiveSequencerStartsFresh : Prop :=
  ∀ (id from_ : Nat) (pc : DWord) (args : List DWord) (rec : Seq), args.length ≤ 63 →
    let q := Seq.activated id pc args rec from_
    (∀ k, k < args.length → q.rdS (k + 1) = args.getD k 0#64) ∧ (∀ r, args.length < r → q.rdS r = 0#64) ∧
    (∀ r, q.rdV r = 0#1024) ∧ (∀ r, r % 8 ≠ 0 → q.rdQ r = 0#128) ∧ q.dt = 0#8 ∧ q.ct = 0#12 ∧
    (∀ d, Tab.get q.li d 0#32 = 0#32) ∧ (∀ j, Tab.get q.sl j 0#8 = 0#8) ∧ q.rmm = 0#32 ∧ q.nanSeen = false ∧
    q.fflags = 0#5 ∧ q.frm = 0#2 ∧ q.loops = [] ∧ q.held = [] ∧ q.steps = 0 ∧ q.vclosed = 0#20 ∧ q.shape = 0#128 ∧
    q.window = 0#320 ∧ q.prio = rec.prio ∧ q.pc = pc ∧ q.status = .ready ∧ q.launch = id

/-! ## Scalar lanes (spec/09) -/

/-- The integer instructions compute the values of Table 9.1 for both operand forms, visible after the steps it gives: b is
s[B], or the sign-extended immediate. Bits 63:6 of a shift or rotate amount are ignored (R149). Division by zero gives all
ones, or the dividend for a remainder; −2^63 by −1 gives −2^63 and remainder 0 (R340, Table 24.1). -/
def Obligations.IntegerInstructionsGiveTheirTable : Prop :=
  ∀ (s : State) (o : ScalarReg) (j : ScalarImm),
    let a := s.rS o.a
    let b := s.rS o.b
    let c := s.rS j.a
    let k := j.imm.signExtend 64
    let sh := fun (x : DWord) => (x.extractLsb' 0 6).toNat
    let one := fun (p : Bool) => (if p then 1#64 else 0#64)
    -- division by zero, and −2^63 by −1 (Table 24.1)
    let edge := fun (x y : DWord) => x = 0x8000000000000000#64 ∧ y = BitVec.allOnes 64
    let quo := fun (x y : DWord) => if y = 0#64 then BitVec.allOnes 64 else if edge x y then x else x.sdiv y
    let rem := fun (x y : DWord) => if y = 0#64 then x else if edge x y then 0#64 else x.srem y
    let reg := fun (i : ScalarReg → Instr) (lat : Nat) (x : DWord) => exec (i o) s = .next (s.resultS o.d.toNat lat x)
    let imm := fun (i : ScalarImm → Instr) (lat : Nat) (x : DWord) => exec (i j) s = .next (s.resultS j.d.toNat lat x)
    reg .add 1 (a + b) ∧ imm .addImm 1 (c + k) ∧ reg .sub 1 (a - b) ∧ imm .subImm 1 (c - k) ∧
    reg .mul 3 (a * b) ∧ imm .mulImm 3 (c * k) ∧
    reg .mulh 3 ((a.signExtend 128 * b.signExtend 128).extractLsb' 64 64) ∧
    imm .mulhImm 3 ((c.signExtend 128 * k.signExtend 128).extractLsb' 64 64) ∧
    reg .mulhu 3 ((a.zeroExtend 128 * b.zeroExtend 128).extractLsb' 64 64) ∧
    imm .mulhuImm 3 ((c.zeroExtend 128 * k.zeroExtend 128).extractLsb' 64 64) ∧
    reg .div 20 (quo a b) ∧ imm .divImm 20 (quo c k) ∧ reg .rem 20 (rem a b) ∧ imm .remImm 20 (rem c k) ∧
    reg .divu 20 (if b = 0#64 then BitVec.allOnes 64 else a / b) ∧ imm .divuImm 20 (if k = 0#64 then BitVec.allOnes 64 else c / k) ∧
    reg .remu 20 (if b = 0#64 then a else a % b) ∧ imm .remuImm 20 (if k = 0#64 then c else c % k) ∧
    reg .and 1 (a &&& b) ∧ imm .andImm 1 (c &&& k) ∧ reg .or 1 (a ||| b) ∧ imm .orImm 1 (c ||| k) ∧
    reg .xor 1 (a ^^^ b) ∧ imm .xorImm 1 (c ^^^ k) ∧ reg .andn 1 (a &&& ~~~b) ∧ imm .andnImm 1 (c &&& ~~~k) ∧
    reg .shl 1 (a <<< sh b) ∧ imm .shlImm 1 (c <<< sh k) ∧ reg .shr 1 (a >>> sh b) ∧ imm .shrImm 1 (c >>> sh k) ∧
    reg .sar 1 (a.sshiftRight (sh b)) ∧ imm .sarImm 1 (c.sshiftRight (sh k)) ∧
    reg .rol 1 (a.rotateLeft (sh b)) ∧ imm .rolImm 1 (c.rotateLeft (sh k)) ∧
    reg .min 1 (if a.toInt ≤ b.toInt then a else b) ∧ imm .minImm 1 (if c.toInt ≤ k.toInt then c else k) ∧
    reg .max 1 (if a.toInt ≤ b.toInt then b else a) ∧ imm .maxImm 1 (if c.toInt ≤ k.toInt then k else c) ∧
    reg .minu 1 (if a.toNat ≤ b.toNat then a else b) ∧ imm .minuImm 1 (if c.toNat ≤ k.toNat then c else k) ∧
    reg .maxu 1 (if a.toNat ≤ b.toNat then b else a) ∧ imm .maxuImm 1 (if c.toNat ≤ k.toNat then k else c) ∧
    reg .seq 1 (one (a == b)) ∧ imm .seqImm 1 (one (c == k)) ∧ reg .sne 1 (one (a != b)) ∧ imm .sneImm 1 (one (c != k)) ∧
    reg .slt 1 (one (a.toInt < b.toInt)) ∧ imm .sltImm 1 (one (c.toInt < k.toInt)) ∧
    reg .sltu 1 (one (a.toNat < b.toNat)) ∧ imm .sltuImm 1 (one (c.toNat < k.toNat)) ∧
    reg .sle 1 (one (a.toInt ≤ b.toInt)) ∧ imm .sleImm 1 (one (c.toInt ≤ k.toInt)) ∧
    reg .sleu 1 (one (a.toNat ≤ b.toNat)) ∧ imm .sleuImm 1 (one (c.toNat ≤ k.toNat))


/-- The moves, selects and bit-field instructions of Table 9.2 with a latency of 1 step, bit by bit: pos is b[5:0], len is
b[11:6] or 64 where that is 0, and bits above 63 read as zero (R150). csel and bins with a register b read c in the lent
register or in s[D], and with an immediate in s[D] (R148). -/
def Obligations.BitFieldInstructionsGiveTheirTable : Prop :=
  ∀ (s : State) (o : ScalarReg) (j m : ScalarImm) (u : ScalarUnary) (e : ScalarSel) (v : ScalarConst),
    let pos := fun (b : DWord) => (b.extractLsb' 0 6).toNat
    let len := fun (b : DWord) => if b.extractLsb' 6 6 = 0#6 then 64 else (b.extractLsb' 6 6).toNat
    let gives := fun (i : Instr) (d : BitVec 6) (p : DWord → Prop) =>
      ∃ x : DWord, exec i s = .next (s.resultS d.toNat 1 x) ∧ p x
    let bits := fun (i : Instr) (d : BitVec 6) (f : Nat → Bool) => gives i d (fun x => ∀ n, n < 64 → x.getLsbD n = f n)
    let c := s.rS (e.c.getD e.d)
    let k := fun (x : BitVec 22) => x.signExtend 64
    gives (.csel e) e.d (fun x => x = if c = 0#64 then s.rS e.b else s.rS e.a) ∧
    gives (.cselImm j) j.d (fun x => x = if s.rS j.d = 0#64 then k j.imm else s.rS j.a) ∧
    gives (.movi v) v.d (fun x => x = k v.imm) ∧
    bits (.movk v) v.d (fun n =>
      if n / 16 = (v.imm.extractLsb' 20 2).toNat then v.imm.getLsbD (n % 16) else (s.rS v.d).getLsbD n) ∧
    gives (.clz u) u.d (fun x => x.toNat ≤ 64 ∧ (∀ n, n < 64 → 64 ≤ n + x.toNat → (s.rS u.a).getLsbD n = false) ∧
      (x.toNat < 64 → (s.rS u.a).getLsbD (63 - x.toNat) = true)) ∧
    gives (.ctz u) u.d (fun x => x.toNat ≤ 64 ∧ (∀ n, n < x.toNat → (s.rS u.a).getLsbD n = false) ∧
      (x.toNat < 64 → (s.rS u.a).getLsbD x.toNat = true)) ∧
    gives (.popc u) u.d (fun x => x.toNat = ((List.range 64).filter (fun n => (s.rS u.a).getLsbD n)).length) ∧
    bits (.bext o) o.d (fun n => n < len (s.rS o.b) && (s.rS o.a).getLsbD (pos (s.rS o.b) + n)) ∧
    bits (.bextImm j) j.d (fun n => n < len (k j.imm) && (s.rS j.a).getLsbD (pos (k j.imm) + n)) ∧
    bits (.bins e) e.d (fun n => if pos (s.rS e.b) ≤ n ∧ n < pos (s.rS e.b) + len (s.rS e.b)
      then c.getLsbD (n - pos (s.rS e.b)) else (s.rS e.a).getLsbD n) ∧
    bits (.binsImm m) m.d (fun n => if pos (k m.imm) ≤ n ∧ n < pos (k m.imm) + len (k m.imm)
      then (s.rS m.d).getLsbD (n - pos (k m.imm)) else (s.rS m.a).getLsbD n) ∧
    bits (.sext o) o.d (fun n => (s.rS o.a).getLsbD (Nat.min n (pos (s.rS o.b)))) ∧
    bits (.sextImm j) j.d (fun n => (s.rS j.a).getLsbD (Nat.min n (pos (k j.imm))))

/-- The binary64 instructions of Table 9.3 compute their result under frm, visible after 4 steps, or 20 for fdiv and fsqrt;
they OR their flags into fflags and count one operation in C12 (R151, R99, R290). A NaN operand gives the canonical NaN,
whatever the mode, and raises invalid exactly when it is signalling; a comparison with a NaN is false, flt and fle raising invalid for
any NaN and feq for a signalling one (R96, R97, R151). Each is Table
9.3's: fadd, fsub, fmul, fdiv and fsqrt give the exact result rounded once: the sum and the product are exact, and the quotient and the root stand for their exact values by more
bits than a rounding sees, the last one odd where bits were dropped; fmin and fmax take one of the two (R97); the comparisons
follow the order of the values; fcvtfi rounds to an integer of 64 bits, fcvtif rounds one. -/
def Obligations.Binary64InstructionsRoundUnderFrm : Prop :=
  (∀ (s : State) (o : ScalarReg) (u : ScalarUnary),
    let two := fun (m : Mnemonic) => binary64Result m s.me.frm (s.rS o.a) (s.rS o.b)
    let one := fun (m : Mnemonic) => binary64Result m s.me.frm (s.rS u.a) 0#64
    let after := fun (d : BitVec 6) (lat : Nat) (r : Rounded) =>
      ((s.raise r.flags).resultS d.toNat lat (BitVec.ofNat 64 r.code)).countMe 12 1
    exec (.fadd64 o) s = .next (after o.d 4 (two .fadd64)) ∧ exec (.fsub64 o) s = .next (after o.d 4 (two .fsub64)) ∧
    exec (.fmul64 o) s = .next (after o.d 4 (two .fmul64)) ∧ exec (.fdiv64 o) s = .next (after o.d 20 (two .fdiv64)) ∧
    exec (.fmin64 o) s = .next (after o.d 4 (two .fmin64)) ∧ exec (.fmax64 o) s = .next (after o.d 4 (two .fmax64)) ∧
    exec (.feq o) s = .next (after o.d 4 (two .feq)) ∧ exec (.flt o) s = .next (after o.d 4 (two .flt)) ∧
    exec (.fle o) s = .next (after o.d 4 (two .fle)) ∧ exec (.fcvtfi u) s = .next (after u.d 4 (one .fcvtfi)) ∧
    exec (.fcvtif u) s = .next (after u.d 4 (one .fcvtif)) ∧
    exec (.fsqrt64 u) s = .next (after u.d 20 (one .fsqrt64))) ∧
  (∀ (mode : BitVec 2) (a b : DWord),
    let nan := fun (x : DWord) => x.extractLsb' 52 11 = 0x7FF#11 ∧ x.extractLsb' 0 52 ≠ 0#52
    let quiet := fun (x : DWord) => x.getLsbD 51 = true
    (nan a ∨ nan b → ∀ m ∈ [Mnemonic.fadd64, .fsub64, .fmul64, .fdiv64],
      (binary64Result m mode a b).code = 0x7FF8000000000000 ∧
      ((binary64Result m mode a b).flags = 0#5 ↔ ¬((nan a ∧ ¬quiet a) ∨ (nan b ∧ ¬quiet b)))) ∧
    (nan a → (binary64Result .fsqrt64 mode a 0#64).code = 0x7FF8000000000000 ∧
      (quiet a → (binary64Result .fsqrt64 mode a 0#64).flags = 0#5) ∧
      (¬quiet a → (binary64Result .fsqrt64 mode a 0#64).flags = flagInvalid)) ∧
    (nan a ∨ nan b → (∀ m ∈ [Mnemonic.feq, .flt, .fle], (binary64Result m mode a b).code = 0) ∧
      (∀ m ∈ [Mnemonic.flt, .fle], (binary64Result m mode a b).flags = flagInvalid) ∧
      ((nan a ∧ ¬quiet a) ∨ (nan b ∧ ¬quiet b) → (binary64Result .feq mode a b).flags = flagInvalid) ∧
      (¬((nan a ∧ ¬quiet a) ∨ (nan b ∧ ¬quiet b)) → (binary64Result .feq mode a b).flags = 0#5)) ∧
    (nan a ∧ nan b → ∀ m ∈ [Mnemonic.fmin64, .fmax64], (binary64Result m mode a b).code = 0x7FF8000000000000)) ∧
  (∀ (mode : BitVec 2) (a b : DWord),
    let x := binary64.decode a.toNat
    let y := binary64.decode b.toNat
    let rounds := fun (m : Mnemonic) (e : Exact) => sameResult (binary64Result m mode a b) (e.round binary64 mode)
    let holds := fun (m : Mnemonic) (p : Prop) =>
      ((binary64Result m mode a b).code = 1 ↔ p) ∧ (binary64Result m mode a b).code ≤ 1 ∧ (binary64Result m mode a b).flags = 0#5
    rounds .fadd64 (x.add y mode) ∧ rounds .fsub64 (x.add y.neg mode) ∧ rounds .fmul64 (x.mul y) ∧
    rounds .fdiv64 (x.div y binary64) ∧ rounds .fsqrt64 (x.sqrt binary64) ∧ rounds .fmin64 (x.minMax y false) ∧
    rounds .fmax64 (x.minMax y true) ∧ takesOne x y false (x.minMax y false) ∧ takesOne x y true (x.minMax y true) ∧
    (x.isNan = false → y.isNan = false → holds .flt (below x y) ∧ holds .fle (¬below y x) ∧
      holds .feq (¬below x y ∧ ¬below y x)) ∧
    (∃ v : Int, roundsToInt mode (-(2 ^ 63)) (2 ^ 63 - 1) x v (binary64Result .fcvtfi mode a b).flags ∧
      (binary64Result .fcvtfi mode a b).code = (BitVec.ofInt 64 v).toNat) ∧
    sameResult (binary64Result .fcvtif mode a b) (binary64.round mode (decide (a.toInt < 0)) a.toInt.natAbs 0)) ∧
  (∀ (a b : Machine.Num) (mode : BitVec 2), addsExactly a b mode (a.add b mode) ∧ multipliesExactly a b (a.mul b)) ∧
  (∀ (p q : Bool) (m n : Nat) (e g : Int),
    let x : Machine.Num := .fin p m e
    (0 < m → 0 < n → ∃ k quo : Nat, x.div (.fin q n g) binary64 = ⟨.fin (p != q) quo (e - g - k - 1), 0#5⟩ ∧
      quo / 2 = m * 2 ^ k / n ∧ (quo % 2 = 0 ↔ n ∣ m * 2 ^ k) ∧ 2 ^ 55 ≤ quo / 2) ∧
    (0 < m → x.div (.fin q 0 g) binary64 = ⟨.inf (p != q), flagDivZero⟩) ∧
    (x.div (.inf q) binary64).num.isZero = true ∧ (Machine.Num.inf p).div (.fin q n g) binary64 = ⟨.inf (p != q), 0#5⟩ ∧
    (0 < m → p = true → x.sqrt binary64 = ⟨.nan false, flagInvalid⟩) ∧
    (0 < m → p = false → ∃ (k root : Nat) (z : Int), x.sqrt binary64 = ⟨.fin false root (z - 1), 0#5⟩ ∧ 2 * z = e - k ∧
      root / 2 * (root / 2) ≤ m * 2 ^ k ∧ m * 2 ^ k < (root / 2 + 1) * (root / 2 + 1) ∧
      (root % 2 = 0 ↔ root / 2 * (root / 2) = m * 2 ^ k) ∧ 2 ^ 55 ≤ root / 2))


/-- nop has no effect of its own (R112). The state reads return, after 2 steps, the value as it stands when their pick
issues: rdsys per Table 9.5, segq the status word of segment b[11:0], rdcnt the loom's count or its sticky bit and 0 for b[4:0] above 25,
whoami per Table 9.6, lidx, rdtok and rdtag (R152, R153). wrsys writes frm or sys.vclosed from the next step. A sequencer
of a loom. The segment status word has STATE in 63:62, PINNED 61, TAGGED 60, SHARED 59, READONLY 58, ZEROED 57, REFERENCED
56, WINDOW 55, the home granule in 47:32 and the declared size in 31:0, and is zero for an undeclared segment (R58). -/
def Obligations.StateReadsReturnWhatStands : Prop :=
  (∀ (s : State) (n : ScalarNum) (w : ScalarWrsys) (y : ScalarQuery) (c : ScalarConst) (d : ScalarDest),
    s.cur.stream = none →
    let l := s.loom s.cur.loom
    let reads := fun (num : BitVec 12) (x : DWord) => n.num = num → exec (.rdsys n) s = .next (s.resultS n.d.toNat 2 x)
    let who := fun (num : BitVec 12) (x : DWord) => n.num = num → exec (.whoami n) s = .next (s.resultS n.d.toNat 2 x)
    let count := fun (i : Instr) (r : BitVec 6) (b : DWord) =>
      let k := (b.extractLsb' 0 5).toNat
      (25 < k → exec i s = .next (s.resultS r.toNat 2 0#64)) ∧
      (k ≤ 25 → b.getLsbD 5 = false → exec i s = .next (s.resultS r.toNat 2 (l.counter s.myTenancy k).value)) ∧
      (k ≤ 25 → b.getLsbD 5 = true →
        exec i s = .next (s.resultS r.toNat 2 (if (l.counter s.myTenancy k).sticky then 1#64 else 0#64)))
    exec .nop s = .next s ∧
    reads 0x000#12 (s.me.fflags.zeroExtend 64) ∧ reads 0x001#12 (s.me.frm.zeroExtend 64) ∧
    reads 0x002#12 (BitVec.ofNat 64 s.cur.step) ∧ reads 0x003#12 (s.me.prio.zeroExtend 64) ∧
    (∀ r, s.myRun = some r → reads 0x004#12 r.chunk) ∧ reads 0x005#12 (s.me.vclosed.zeroExtend 64) ∧
    reads 0x010#12 l.vxslip ∧ reads 0x011#12 (BitVec.ofNat 64 ((s.cycle - max s.epoch l.resetCycle) % 8)) ∧
    reads 0x012#12 (BitVec.ofNat 64 (s.cycle - max s.epoch l.resetCycle)) ∧
    reads 0x013#12 ((l.debugOf s.myTenancy).drift.zeroExtend 64) ∧
    (w.num = 0x001#12 →
      exec (.wrsys w) s = .next (s.result .frm 1 (BitVec.allOnes 1024) ((s.rS w.a).zeroExtend 1024))) ∧
    (w.num = 0x005#12 →
      exec (.wrsys w) s = .next (s.result .vclosed 1 (BitVec.allOnes 1024) ((s.rS w.a).zeroExtend 1024))) ∧
    exec (.segq y) s = .next (s.resultS y.d.toNat 2 (s.segStatus (s.rS y.b))) ∧
    exec (.segqImm c) s = .next (s.resultS c.d.toNat 2 (s.segStatus (c.imm.signExtend 64))) ∧
    (∀ r, s.myRun = some r → ∀ b : DWord, s.segStatus b = r.statusWord (b.extractLsb' 0 12).toNat) ∧
    count (.rdcnt y) y.d (s.rS y.b) ∧ count (.rdcntImm c) c.d (c.imm.signExtend 64) ∧
    who 0#12 (BitVec.ofNat 64 s.cur.seq) ∧ who 1#12 (BitVec.ofNat 64 (s.cur.loom % 16)) ∧
    who 2#12 (BitVec.ofNat 64 (s.cur.loom / 16 % 20)) ∧ who 3#12 (BitVec.ofNat 64 (s.cur.loom / 320)) ∧
    who 4#12 (if s.domain.isSome then s.deviceNumber.zeroExtend 64 else 0#64) ∧
    who 5#12 (BitVec.ofNat 64 s.myTenancy) ∧
    (∀ r, s.myRun = some r → who 6#12 (BitVec.ofNat 64 r.rank) ∧ who 7#12 (BitVec.ofNat 64 r.loomset)) ∧
    exec (.lidx n) s = .next (s.resultS n.d.toNat 2 (((s.me.view (.li n.num.toNat)).extractLsb' 0 32).zeroExtend 64)) ∧
    exec (.rdtok d) s = .next (s.resultS d.d.toNat 2 (s.me.dtView.zeroExtend 64)) ∧
    exec (.rdtag d) s = .next (s.resultS d.d.toNat 2 (((s.me.view .ct).extractLsb' 0 12).zeroExtend 64)) ∧
    (s.me.group = [] → exec (.rdtag d) s = .next (s.resultS d.d.toNat 2 (s.me.ct.zeroExtend 64)))) ∧
  (∀ (r : LoomRun) (seg : Nat),
    (Tab.find? r.segs seg = none → r.statusWord seg = 0#64) ∧
    (∀ g, Tab.find? r.segs seg = some g →
      (r.statusWord seg).extractLsb' 62 2 = g.state.code ∧ (r.statusWord seg).getLsbD 61 = decide (0 < g.pins) ∧
      (r.statusWord seg).getLsbD 60 = g.tagged ∧ (r.statusWord seg).getLsbD 59 = g.shared ∧
      (r.statusWord seg).getLsbD 58 = g.readonly ∧ (r.statusWord seg).getLsbD 57 = g.zeroed ∧
      (r.statusWord seg).getLsbD 56 = g.ref ∧ (r.statusWord seg).getLsbD 55 = r.inWindow seg g ∧
      (r.statusWord seg).extractLsb' 48 7 = 0#7 ∧
      (r.statusWord seg).extractLsb' 32 16 = BitVec.ofNat 16 (if g.state = .unborn ∨ g.state = .pushed then 0 else g.home) ∧
      (r.statusWord seg).extractLsb' 0 32 = BitVec.ofNat 32 g.size))


/-- The frame of every well-formed slot of sa, sb, va, vb, vc, fn and so: it answers the state before, or a next state that differs from
it only in the results in flight and the notes of its group, in flags raised on top of fflags, and in the count of C12. So
every register, every loop and hold, and every byte of memory is as before until a result lands. -/
def Obligations.RegisterSlotsChangeOnlyTheirResults : Prop :=
  ∀ (i : Instr) (s : State), i.wf = true →
    i.lanes = [.sa, .sb] ∨ i.lanes = [.va, .vb, .vc] ∨ i.lanes = [.fn] ∨ i.lanes = [.so] →
    exec i s = .next s ∨
    ∃ (fl : List Landing) (gr : List GroupWrite) (raised : BitVec 5) (n : Nat),
      exec i s = .next ((s.updMe (fun q =>
        { q with flight := fl, group := gr, fflags := q.fflags ||| raised })).countMe 12 n)


/-! ## Vector lanes, fn and so (spec/10) -/

/-- The integer vector instructions write the value of Table 10.2 to every active element, two steps later: modulo 2^size,
or saturated to the signed range with SAT; they raise no flag and count in C10, idot4 eight for each element (R172, R185). -/
def Obligations.VectorIntegerElementsGiveTheirTable : Prop :=
  ∀ (s : State) (o : VecOps),
    let v := s.vecSlot o
    let size := v.size
    let int := fun (x : Nat) => if x < 2 ^ (size - 1) then (x : Int) else (x : Int) - 2 ^ size
    let wrap := fun (i : Int) => (i % 2 ^ size).toNat
    let sat := fun (i : Int) => if v.sat then wrap (max (-(2 ^ (size - 1))) (min i (2 ^ (size - 1) - 1))) else wrap i
    let gives := fun (i : Instr) (weight : Nat) (f : Nat → Nat → Nat) =>
      writesElements s i v.d 2 size v.n (fun k => if v.active k then some ⟨f (v.x k) (v.y k), 0#5, false⟩ else none) 10
        (weight * v.actives)
    gives (.iadd o) 1 (fun x y => sat (int x + int y)) ∧ gives (.isub o) 1 (fun x y => sat (int x - int y)) ∧
    gives (.imul o) 1 (fun x y => sat (int x * int y)) ∧ gives (.imulh o) 1 (fun x y => wrap (int x * int y / 2 ^ size)) ∧
    gives (.iand o) 1 (fun x y => x &&& y) ∧ gives (.ior o) 1 (fun x y => x ||| y) ∧ gives (.ixor o) 1 (fun x y => x ^^^ y) ∧
    gives (.ishl o) 1 (fun x y => x * 2 ^ (y % size) % 2 ^ size) ∧ gives (.ishr o) 1 (fun x y => x / 2 ^ (y % size)) ∧
    gives (.isar o) 1 (fun x y => wrap (int x / 2 ^ (y % size))) ∧
    gives (.imin o) 1 (fun x y => if int x < int y then x else y) ∧
    gives (.imax o) 1 (fun x y => if int x < int y then y else x) ∧
    gives (.iminu o) 1 (fun x y => Nat.min x y) ∧ gives (.imaxu o) 1 (fun x y => Nat.max x y) ∧
    gives (.iaddi o) 1 (fun x _ => sat (int x + v.imm)) ∧
    (size = 32 → writesElements s (.idot4 o) v.d 2 32 v.n (fun k => if v.active k then
      let byte := fun (x j : Nat) => let b := x / 256 ^ j % 256; if b < 128 then (b : Int) else (b : Int) - 256
      let p := fun (j : Nat) => byte (v.x k) j * byte (v.y k) j
      some ⟨sat (int (v.z k) + p 0 + p 1 + p 2 + p 3), 0#5, false⟩ else none) 10 (8 * v.actives))

/-- The floating-point vector instructions compute exactly and round once to the type, under the mode of R95, on every
active element, four steps later, with the flags of the active elements: the sum, the product and the sum of fma, whose product is
not rounded, are exact; fabs and fneg move
the other bits unchanged and raise no flag (R171, Table 10.1). NB negates y before use. fmin and fmax take one of the two numbers
(R97). vrnd gives an integral value rounded once, inexact where it differs, an infinity and a zero unchanged, and the canonical NaN
for a NaN, invalid for a signalling one: a magnitude m · 2^e lies between two integers, and the mode chooses. -/
def Obligations.VectorFloatElementsGiveTheirTable : Prop :=
  (∀ (s : State) (o : VecOps),
    let v := s.vecSlot o
    let f := typeFmt v.t
    let y := fun (k : Nat) => if v.nb then (f.decode (v.y k)).neg else f.decode (v.y k)
    let gives := fun (i : Instr) (counter weight : Nat) (r : Nat → Rounded) =>
      writesElements s i v.d 4 v.size v.n (fun k => if v.active k then some (r k) else none) counter (weight * v.actives)
    let counter := if v.t = 0 then 8 else if v.t < 3 then 9 else 10
    gives (.fadd o) counter 1 (fun k => ((f.decode (v.x k)).add (y k) v.mode).round f v.mode) ∧
    gives (.fsub o) counter 1 (fun k => ((f.decode (v.x k)).add (y k).neg v.mode).round f v.mode) ∧
    gives (.fmul o) counter 1 (fun k => ((f.decode (v.x k)).mul (y k)).round f v.mode) ∧
    gives (.fma o) counter 2 (fun k => ((f.decode (v.x k)).fma (y k) (f.decode (v.z k)) v.mode).round f v.mode) ∧
    gives (.fmin o) counter 1 (fun k => ((f.decode (v.x k)).minMax (y k) false).round f v.mode) ∧
    gives (.fmax o) counter 1 (fun k => ((f.decode (v.x k)).minMax (y k) true).round f v.mode) ∧
    (∃ r : Nat → Rounded, gives (.vrnd o) counter 1 r ∧ ∀ k,
      let x := f.decode (v.x k)
      (∀ g, x = .nan g → (r k).code = f.canonical ∧ (r k).flags = flagIf g flagInvalid) ∧
      (∀ p, x = .inf p → (r k).code = v.x k ∧ (r k).flags = 0#5) ∧
      (∀ p m e, x = .fin p m e →
        let i := roundAt v.mode p m e 0
        (r k).code = (f.round 0#2 p i.1 0).code ∧ (r k).flags = flagIf i.2 flagInexact ∧
        (v.t < 3 → m = 0 → (r k).code = v.x k))) ∧
    gives (.fabs o) counter 0 (fun k => ⟨v.x k % 2 ^ (v.size - 1), 0#5, false⟩) ∧
    gives (.fneg o) counter 0 (fun k => ⟨v.x k ^^^ 2 ^ (v.size - 1), 0#5, false⟩)) ∧
  (∀ (a b : Machine.Num) (most : Bool), takesOne a b most (a.minMax b most)) ∧
  (∀ (a b c : Machine.Num) (mode : BitVec 2), addsExactly a b mode (a.add b mode) ∧ multipliesExactly a b (a.mul b) ∧
    fusesExactly a b c mode (a.fma b c mode)) ∧
  (∀ (mode : BitVec 2) (neg : Bool) (m d : Nat),
    let n := roundAt mode neg m (-(d : Int)) 0
    let low := m / 2 ^ d
    let rest := 2 * (m % 2 ^ d)
    n.2 = decide (m % 2 ^ d ≠ 0) ∧ (m % 2 ^ d = 0 → n.1 = low) ∧
    (m % 2 ^ d ≠ 0 → n.1 = (match mode with
      | 0#2 => if rest < 2 ^ d then low else if 2 ^ d < rest then low + 1 else low + low % 2
      | 1#2 => low
      | 2#2 => if neg then low + 1 else low
      | _ => if neg then low else low + 1)) ∧
    roundAt mode neg m d 0 = (m * 2 ^ d, false))

/-- Rounding keeps a value that the format holds: for binary32, bfloat16, binary16, E4M3 and E5M2, and under each mode, the
value of a finite code rounds to that code and raises no flag (R92, R95, R99). -/
def Obligations.RepresentableValuesRoundToThemselves : Prop :=
  ∀ (t code : Nat) (mode : BitVec 2), t < 5 → code < 2 ^ typeSize t → code % (typeFmt t).signBit ≤ (typeFmt t).maxCode →
    let f := typeFmt t
    ∃ (neg : Bool) (m : Nat) (x : Int), f.decode code = .fin neg m x ∧
      (f.round mode neg m x).code = code ∧ (f.round mode neg m x).flags = 0#5

/-- The move instructions move bits unchanged and raise no flag (Table 10.4, R176): vmov, vbcs, vidx and vclass write the
active elements two steps later, vshuf, vrot, vcat and vput three; vsel uses its guard to select and writes every element of
the width (R174); vclass sets one bit, of Table 10's classes (R175). -/
def Obligations.VectorMovesGiveTheirTable : Prop :=
  ∀ (s : State) (o : VecOps),
    let v := s.vecSlot o
    let bits := fun (x : Nat) => some (⟨x, 0#5, false⟩ : Rounded)
    let gives := fun (i : Instr) (lat : Nat) (r : Nat → Nat) =>
      writesElements s i v.d lat v.size v.n (fun k => if v.active k then bits (r k) else none) 10 0
    gives (.vmov o) 2 (fun k => v.x k) ∧ gives (.vbcs o) 2 (fun _ => v.scalar.toNat % 2 ^ v.size) ∧
    gives (.vidx o) 2 (fun k => ((v.imm + k) % 2 ^ v.size).toNat) ∧
    gives (.vshuf o) 3 (fun k => v.x (v.y k % v.n)) ∧ gives (.vrot o) 3 (fun k => v.x (((k : Int) + v.imm) % v.n).toNat) ∧
    gives (.vcat o) 3 (fun k => if k < v.n / 2 then v.x k else v.y (k - v.n / 2)) ∧
    writesElements s (.vput o) v.d 3 v.size v.n (fun k =>
      if k = (v.imm % v.n).toNat ∧ v.active k = true then bits (v.scalar.toNat % 2 ^ v.size) else none) 10 0 ∧
    writesElements s (.vsel o) v.d 2 v.size v.n (fun k => bits (if v.active k then v.x k else v.y k)) 10 0 ∧
    (v.t < 3 → ∃ c : Nat → Nat, gives (.vclass o) 2 (fun k => 2 ^ c k) ∧ ∀ k,
      let x := (typeFmt v.t).decode (v.x k)
      let sub := (typeFmt v.t).subnormal (v.x k)
      (x = .inf true → c k = 0) ∧ (x = .inf false → c k = 7) ∧ (x = .nan true → c k = 8) ∧ (x = .nan false → c k = 9) ∧
      (∀ m e, x = .fin true m e → c k = if m = 0 then 3 else if sub then 2 else 1) ∧
      (∀ m e, x = .fin false m e → c k = if m = 0 then 4 else if sub then 5 else 6))

/-- The predicate instructions write the bits of the width whose guard bit is set, two steps later (Table 10.7); vcmp writes
its test into every bit position of an active element, and raises the flags of its tests (R173, Table 7.8). A write to index
0 is discarded where it lands. With a NaN, eq, lt, le, gt and ge are false, ne true, unordered true and ordered its
complement; lt, le, gt and ge raise invalid, the others only for a signalling NaN (Table 10.3). With none, lt, le and eq follow the order of
the two values (R97). -/
def Obligations.PredicatesGiveTheirTable : Prop :=
  (∀ (s : State) (o : VecOps),
    let v := s.vecSlot o
    let a := s.rQ (o.a.toNat % 32)
    let b := s.rQ (8 * v.cl + o.b.toNat)
    let int := fun (x : Nat) => if x < 2 ^ (v.size - 1) then (x : Int) else (x : Int) - 2 ^ v.size
    let gives := fun (i : Instr) (f : Nat → Bool) =>
      writesPredicate s i (8 * v.cl + o.d.toNat) 0#5 (fun k => decide (8 * k < v.width) && (v.guard.getLsbD k != v.gn)) f
    let test := fun (k : Nat) =>
      let x := v.x k
      let y := v.y k
      if isFpType v.t then fpTest v.t v.cond x y
      else ([x == y, x != y, decide (int x < int y), decide (int x ≤ int y), decide (int y < int x), decide (int y ≤ int x),
        decide (x < y), decide (x ≤ y), decide (y < x), decide (y ≤ x)].getD v.cond (decide (y ≤ x)), 0#5)
    gives (.pand o) (fun k => a.getLsbD k && b.getLsbD k) ∧ gives (.por o) (fun k => a.getLsbD k || b.getLsbD k) ∧
    gives (.pxor o) (fun k => a.getLsbD k != b.getLsbD k) ∧ gives (.pnot o) (fun k => !a.getLsbD k) ∧
    gives (.pmov o) (fun k => a.getLsbD k) ∧
    (o.w ≠ 3#2 → writesPredicate s (.vcmp o) (8 * v.cl + o.d.toNat)
      ((List.range v.n).foldl (fun f k => f ||| (if v.active k then (test k).2 else 0#5)) 0#5)
      (fun k => decide (8 * k < v.width) && v.active (8 * k / v.size)) (fun k => (test (8 * k / v.size)).1))) ∧
  (∀ (t x y : Nat), t < 5 →
    let f := typeFmt t
    let signals := (f.decode x).isSignalling || (f.decode y).isSignalling
    ((f.decode x).isNan = true ∨ (f.decode y).isNan = true →
      (∀ c ∈ [2, 3, 4, 5], fpTest t c x y = (false, flagInvalid)) ∧
      fpTest t 0 x y = (false, flagIf signals flagInvalid) ∧ fpTest t 1 x y = (true, flagIf signals flagInvalid) ∧
      fpTest t 10 x y = (true, flagIf signals flagInvalid) ∧ fpTest t 11 x y = (false, flagIf signals flagInvalid)) ∧
    ((f.decode x).isNan = false → (f.decode y).isNan = false →
      (∀ c ∈ [0, 1, 2, 3, 4, 5, 10, 11], (fpTest t c x y).2 = 0#5) ∧ (fpTest t 11 x y).1 = true ∧
      (fpTest t 1 x y).1 = !(fpTest t 0 x y).1 ∧ (fpTest t 5 x y).1 = !(fpTest t 2 x y).1 ∧
      (fpTest t 4 x y).1 = !(fpTest t 3 x y).1) ∧
    ((f.decode x).isNan = false → (f.decode y).isNan = false →
      ((fpTest t 2 x y).1 = true ↔ below (f.decode x) (f.decode y)) ∧
      ((fpTest t 3 x y).1 = true ↔ ¬below (f.decode y) (f.decode x)) ∧
      ((fpTest t 0 x y).1 = true ↔ ¬below (f.decode x) (f.decode y) ∧ ¬below (f.decode y) (f.decode x))) ∧
    (fpTest t 0 0 f.signBit).1 = true)


/-- vred writes element 0 alone and vscan every active element, six and eight steps later (R177). vred gives the root of the pairwise tree
over its elements (R104), vscan at each active element the chain up to it (R105), an inactive one entering as the identity; the
flags of the tree's nodes, and of the chain's steps at active elements, join fflags. A node is Table 10.5's operation: a floating-point
add rounded once under the mode, minimumNumber and maximumNumber; integers added modulo 2^size, or at every node clamped with SAT, least
and greatest signed and unsigned, and, or and exclusive or. An integer add that does not saturate gives, modulo 2^size, the sum of the
active elements, or of those up to the element; with every element inactive vred gives the identity and raises nothing. Two clauses are
the model's: element 0 of a vscan is copied as it is and raises nothing, a signalling NaN too (log 52), and only the chain's steps at
active elements raise (log 32). -/
def Obligations.ReductionsAndScansGiveTheirSums : Prop :=
  ∀ (s : State) (o : VecOps), o.w ≠ 3#2 → o.b.toNat < 8 →
    let v := s.vecSlot o
    let f := typeFmt v.t
    let fp := isFpType v.t
    let op := o.b.toNat
    let int := fun (x : Nat) => if x < 2 ^ (v.size - 1) then (x : Int) else (x : Int) - 2 ^ v.size
    let wrap := fun (i : Int) => (i % 2 ^ v.size).toNat
    let sat := fun (i : Int) => if v.sat then wrap (max (-(2 ^ (v.size - 1))) (min i (2 ^ (v.size - 1) - 1))) else wrap i
    let node := fun (x y : Nat) =>
      if fp then
        (if op = 0 then (f.decode x).add (f.decode y) v.mode else (f.decode x).minMax (f.decode y) (op != 1)).round f v.mode
      else (⟨match op with
        | 0 => sat (int x + int y)
        | 1 => if int x < int y then x else y
        | 2 => if int x < int y then y else x
        | 3 => Nat.min x y | 4 => Nat.max x y | 5 => x &&& y | 6 => x ||| y | _ => x ^^^ y, 0#5, false⟩ : Rounded)
    let identity := if fp then (if op = 0 then f.signBit else f.canonical)
      else [0, 2 ^ (v.size - 1) - 1, 2 ^ (v.size - 1), 2 ^ v.size - 1, 0, 2 ^ v.size - 1, 0, 0].getD op 0
    let enters := fun (j : Nat) => if v.active j then v.x j else identity
    let both := fun (g : Nat → BitVec 5) (n : Nat) => (List.range n).foldl (fun x j => x ||| g j) 0#5
    let sum := fun (k : Nat) => ((List.range k).map (fun j => if v.active j then v.x j else 0)).foldl (· + ·) 0 % 2 ^ v.size
    let adds := fp = false ∧ v.sat = false ∧ o.b = 0#5
    (∃ r : Rounded, writesElements s (.vred o) v.d 6 v.size 1 (fun _ => some r) (elementCounter v.t) v.actives ∧
      (∀ levels, v.n = 2 ^ levels → r.code = treeNode node enters levels 0 ∧
        r.flags = both (fun l => both (fun j =>
          (node (treeNode node enters l (2 * j)) (treeNode node enters l (2 * j + 1))).flags) (v.n / 2 ^ (l + 1))) levels) ∧
      (adds → r.code = sum v.n ∧ r.flags = 0#5) ∧
      (v.actives = 0 → v.t < 3 ∨ fp = false → r.code = identity ∧ r.flags = 0#5)) ∧
    (∃ (r : Nat → Nat) (flags : BitVec 5) (mask value : VReg),
      exec (.vscan o) s = .next (((s.raise flags).result (.v v.d) 8 mask value).countLater (elementCounter v.t) 8 v.actives) ∧
      (∀ b, b < 1024 → mask.getLsbD b = (decide (b < v.size * v.n) && v.active (b / v.size)) ∧
        (b < v.size * v.n → v.active (b / v.size) = true → value.getLsbD b = (r (b / v.size)).testBit (b % v.size))) ∧
      (∀ k, k < v.n → r k = chainAt node enters k) ∧
      flags = both (fun j => if v.active (j + 1) then (node (chainAt node enters j) (enters (j + 1))).flags else 0#5) (v.n - 1) ∧
      (adds → flags = 0#5 ∧ ∀ k, k < v.n → r k = sum (k + 1)))

/-- vcvt, vpack, vunpk and vdeq write each element whose guard is set with its converted value (R178, R179, R182): from
integer to integer the sign extension or the low bits, saturated with SAT; between floating-point formats and from an integer
one rounding, with R98's overflow, a NaN giving the canonical NaN of the destination, and to the same type a copy; to an
integer one rounding, clamped to its range (R98). vdeq gives the value of each code times 2^(s − 127), rounded to nearest, and
the canonical NaN for a NaN code or the scale 0xFF. -/
def Obligations.ConversionsGiveTheirTable : Prop :=
  ∀ (s : State) (o : VecOps),
    let v := s.vecSlot o
    let u := o.b.toNat % 8
    let half := v.size / 2
    let twice := 2 * v.size
    let m := v.n / 2
    let int := fun (size x : Nat) => if x < 2 ^ (size - 1) then (x : Int) else (x : Int) - 2 ^ size
    let low := fun (size : Nat) (i : Int) => (i % 2 ^ size).toNat
    let fit := fun (size : Nat) (i : Int) =>
      if v.sat then low size (max (-(2 ^ (size - 1))) (min i (2 ^ (size - 1) - 1))) else low size i
    let bits := fun (x : Nat) => (⟨x, 0#5, false⟩ : Rounded)
    (∃ r : Nat → Rounded,
      writesElements s (.vcvt o) v.d 4 (typeSize u) v.n (fun k => if v.active k then some (r k) else none) 10 0 ∧
      (isFpType v.t = false → isFpType u = false → ∀ k, r k = bits (fit (typeSize u) (int v.size (v.x k)))) ∧
      (isFpType v.t = true → v.t = u → ∀ k, (r k).code =
        if ((typeFmt u).decode (v.x k)).isNan then (typeFmt u).canonical else v.x k) ∧
      (isFpType v.t = true → isFpType u = true → v.t ≠ u → ∀ k,
        convertsTo (typeFmt u) v.mode (v.sat && u != 0) ((typeFmt v.t).decode (v.x k)) (r k)) ∧
      (isFpType v.t = false → isFpType u = true → ∀ k,
        let i := int v.size (v.x k)
        convertsTo (typeFmt u) v.mode (v.sat && u != 0) (.fin (decide (i < 0)) i.natAbs 0) (r k)) ∧
      (isFpType v.t = true → isFpType u = false → ∀ k, ∃ i : Int, (r k).code = low (typeSize u) i ∧
        roundsToInt v.mode (-(2 ^ (typeSize u - 1))) (2 ^ (typeSize u - 1) - 1) ((typeFmt v.t).decode (v.x k)) i (r k).flags)) ∧
    writesElements s (.vpack o) v.d 3 half (2 * v.n) (fun k => if v.activeAt half k then
      some (bits (fit half (int v.size (if k < v.n then v.x k else v.y (k - v.n))))) else none) 10 0 ∧
    writesElements s (.vunpk o) v.d 3 twice m (fun k => if v.activeAt twice k then
      let x := v.x (m * (o.b.toNat % 2) + k)
      some (bits (if o.b.getLsbD 1 then x else low twice (int v.size x))) else none) 10 0 ∧
    (∃ r : Nat → Rounded, writesElements s (.vdeq o) v.d 4 v.size v.n (fun k => if v.active k then some (r k) else none) 10 0 ∧
      ∀ k,
        let scale := (v.a.extractLsb' (8 * (120 + k / 32)) 8).toNat
        let width := if u = 0 ∨ u = 1 then 4 else if u = 2 then 6 else 8
        let code := v.a.toNat / 2 ^ (width * k) % 2 ^ width
        let i := int width code
        let value := if u = 0 then e2m1.decode code else if u = 4 then e4m3.decode code else if u = 5 then e5m2.decode code
          else .fin (decide (i < 0)) i.natAbs (2 - width)
        (scale = 0xFF ∨ value.isNan = true → (r k).code = (typeFmt v.t).canonical ∧ (r k).flags = 0#5) ∧
        (scale ≠ 0xFF → ∀ p, value = .inf p → (r k).code = (typeFmt v.t).infinity p ∧ (r k).flags = 0#5) ∧
        (scale ≠ 0xFF → ∀ p m e, value = .fin p m e → sameResult (r k) ((typeFmt v.t).round 0#2 p m (e + scale - 127))))

/-- Quantisation (R107, R108, R180, R181, R183): vmaxe writes the shared exponent of each block to sl three steps later and
rmm at the next step, where an element is active: the running maximum of the magnitudes that are no NaN, and NaN-seen; vqnt writes all
1,024 bits, codes from byte 0, an inactive element as code
0, an active one as R108's code against the scale of its block, raising invalid for a NaN, and inexact alone for an infinity and
for a number that its code does not hold (R99, R108; that under the scale 0xFF no code holds one is the model's reading), that scale in byte 120 + j and zero elsewhere; vrmm writes rmm to element 0, NaN-seen to element 1, zero to the
rest, and with clr clears both from the next step. The shared exponent of a block is 0xFF when it holds a NaN or an
infinity, 0 when every element is zero, and otherwise X + 127 clamped to 0 to 254, X the exponent of its greatest magnitude less that of the format's greatest normal value.
That vmaxe raises no flag, for a signalling NaN neither, is the model's (log 53). -/
def Obligations.QuantisationWritesItsBlocks : Prop :=
  ∀ (s : State) (o : VecOps), o.t.toNat < 3 → o.w ≠ 3#2 →
    let v := s.vecSlot o
    let f := o.b.toNat % 8
    let blocks := (v.n + 31) / 32
    let block := fun (j : Nat) => ((List.range v.n).filter (fun i => decide (i / 32 = j) && v.active i)).map
      (fun i => (typeFmt v.t).decode (v.x i))
    let xs := (List.range blocks).flatMap block
    let old := s.me.view .rmm
    let most := xs.foldl (fun m x => if x.isNan then m
      else (((binary32.decode m).minMax x.abs true).round binary32 0#2).code) (old.extractLsb' 0 32).toNat
    let latched := (List.range blocks).foldl (fun (t : State) j =>
      t.result (.sl j) 3 (BitVec.allOnes 1024) (BitVec.ofNat 1024 (blockExponent f (block j)))) s
    let width := if f = 0 ∨ f = 1 then 4 else if f = 2 then 6 else 8
    (xs = [] → exec (.vmaxe o) s = .next latched) ∧
    (xs ≠ [] → ∃ value : VReg,
      exec (.vmaxe o) s = .next (latched.result .rmm 1 (BitVec.allOnes 1024) value) ∧
      value.extractLsb' 0 32 = BitVec.ofNat 32 most ∧
      value.getLsbD 32 = (old.getLsbD 32 || xs.any (fun x => x.isNan))) ∧
    (∃ (flags : BitVec 5) (value : VReg),
      exec (.vqnt o) s = .next ((s.raise flags).result (.v v.d) 4 (BitVec.allOnes 1024) value) ∧
      (∃ fl : Nat → BitVec 5, flags = (List.range v.n).foldl (fun a k => a ||| (if v.active k then fl k else 0#5)) 0#5 ∧
        ∀ k, k < v.n →
          let code := value.toNat / 2 ^ (width * k) % 2 ^ width
          let c := ((s.me.view (.sl (k / 32))).extractLsb' 0 8).toNat
          let x := (typeFmt v.t).decode (v.x k)
          let i : Int := if code < 2 ^ (width - 1) then (code : Int) else (code : Int) - 2 ^ width
          let held := if f = 0 then e2m1.decode code else if f = 4 then e4m3.decode code else if f = 5 then e5m2.decode code
            else .fin (decide (i < 0)) i.natAbs (2 - width)
          v.active k = true → (x.isNan = true → fl k = flagInvalid) ∧ (x.isInf = true → fl k = flagInexact) ∧
            ∀ p m e, x = .fin p m e →
              let y : Machine.Num := .fin p m (e + 127 - c)
              (c = 0xFF ∨ below y held ∨ below held y → fl k = flagInexact) ∧
              (c ≠ 0xFF → ¬below y held → ¬below held y → fl k = 0#5)) ∧
      (∀ j, j < blocks → value.extractLsb' (8 * (120 + j)) 8 = (s.me.view (.sl j)).extractLsb' 0 8) ∧
      (∀ b, width * v.n ≤ b → b < 960 ∨ 960 + 8 * blocks ≤ b → value.getLsbD b = false) ∧
      (∀ k, k < v.n →
        let code := value.toNat / 2 ^ (width * k) % 2 ^ width
        let c := ((s.me.view (.sl (k / 32))).extractLsb' 0 8).toNat
        let x := (typeFmt v.t).decode (v.x k)
        let top : Int := 2 ^ (width - 1) - 1
        (v.active k = false → code = 0) ∧
        (v.active k = true → c = 0xFF ∨ x.isNan = true → code = 0) ∧
        (v.active k = true → c ≠ 0xFF → f ∈ [1, 2, 3] →
          (∀ p, x = .inf p → code = ((if p then -top else top) % 2 ^ width).toNat) ∧
          (∀ p m e, x = .fin p m e →
            let n := (roundAt 0#2 p m (e + 127 - c + width - 2) 0).1
            code = ((if p then -(min (n : Int) top) else min (n : Int) top) % 2 ^ width).toNat)) ∧
        (v.active k = true → c ≠ 0xFF → ∀ g, (f, g) ∈ [(0, e2m1), (4, e4m3), (5, e5m2)] →
          let sign := fun (p : Bool) => if p then g.signBit else 0
          (∀ p, x = .inf p → code = g.maxCode + sign p) ∧
          (∀ p m e, x = .fin p m e →
            let r := g.round 0#2 p m (e + 127 - c)
            code = if r.flags.getLsbD 2 then g.maxCode + sign p else if r.code % g.signBit = 0 then 0 else r.code)))) ∧
    (o.t = 0#3 → ∃ mask value : VReg,
      exec (.vrmm o) s = .next (if o.b.getLsbD 0
        then (s.result (.v v.d) 2 mask value).result .rmm 1 (BitVec.allOnes 1024) 0#1024
        else s.result (.v v.d) 2 mask value) ∧
      holdsElements mask value 32 v.n (fun k =>
        if k = 0 then (old.extractLsb' 0 32).toNat else if k = 1 then (old.extractLsb' 32 1).toNat else 0)) ∧
    (∀ ys : List Machine.Num,
      let greatest : Int := if f = 0 then 2 else if f = 4 then 8 else if f = 5 then 15 else 0
      (ys.any (fun x => x.isNan || x.isInf) = true → blockExponent f ys = 0xFF) ∧
      (ys.all (fun x => x.isZero) = true → blockExponent f ys = 0) ∧
      (ys.any (fun x => x.isNan || x.isInf) = false → ∀ p m e, .fin p m e ∈ ys → 0 < m →
        (∀ q n g, .fin q n g ∈ ys → 0 < n → (Nat.log2 n : Int) + g ≤ (Nat.log2 m : Int) + e) →
        (blockExponent f ys : Int) = max 0 (min ((Nat.log2 m : Int) + e - greatest + 127) 254)))

/-- The thirteen special functions each answer a next state: they write every active element eight steps later and count it
in C11, whatever frm holds (R186); their special operands give Table 10.9's results, for f32, bf16 and f16: a NaN gives the canonical NaN (R187). -/
def Obligations.SpecialFunctionsGiveTheirTable : Prop :=
  (∀ (s : State) (o : FnOps),
    let size := typeSize o.t.toNat
    let n := 256 * 2 ^ o.w.toNat / size
    let a := s.readVec o.a.toNat
    let b := s.readVec o.b.toNat
    let on := fun (k : Nat) => match o.guard with
      | none => true
      | some g => (s.rQ g.q.toNat).getLsbD (size / 8 * k) != g.neg
    let element := fun (m : Mnemonic) (k : Nat) =>
      if on k then some (specialElement m o.t.toNat (elemAt a size k) (elemAt b size k)) else none
    let after := fun (m : Mnemonic) (mask value : VReg) =>
      ((s.raise ((List.range n).foldl (fun f k => f ||| ((element m k).map (·.flags)).getD 0#5) 0#5)).result (.v o.d.toNat) 8
        mask value).countLater 11 8 ((List.range n).countP on)
    let holds := fun (m : Mnemonic) (mask value : VReg) => ∀ bit, bit < 1024 →
      mask.getLsbD bit = (decide (bit < size * n) && (element m (bit / size)).isSome) ∧
      (∀ x, bit < size * n → element m (bit / size) = some x → value.getLsbD bit = x.code.testBit (bit % size))
    (∃ m x : VReg, exec (.frcp o) s = .next (after .frcp m x) ∧ holds .frcp m x) ∧
    (∃ m x : VReg, exec (.frsqrt o) s = .next (after .frsqrt m x) ∧ holds .frsqrt m x) ∧
    (∃ m x : VReg, exec (.fnFsqrt o) s = .next (after .fnFsqrt m x) ∧ holds .fnFsqrt m x) ∧
    (∃ m x : VReg, exec (.fnFdiv o) s = .next (after .fnFdiv m x) ∧ holds .fnFdiv m x) ∧
    (∃ m x : VReg, exec (.fexp2 o) s = .next (after .fexp2 m x) ∧ holds .fexp2 m x) ∧
    (∃ m x : VReg, exec (.flog2 o) s = .next (after .flog2 m x) ∧ holds .flog2 m x) ∧
    (∃ m x : VReg, exec (.fexp o) s = .next (after .fexp m x) ∧ holds .fexp m x) ∧
    (∃ m x : VReg, exec (.flog o) s = .next (after .flog m x) ∧ holds .flog m x) ∧
    (∃ m x : VReg, exec (.fsin o) s = .next (after .fsin m x) ∧ holds .fsin m x) ∧
    (∃ m x : VReg, exec (.fcos o) s = .next (after .fcos m x) ∧ holds .fcos m x) ∧
    (∃ m x : VReg, exec (.ftanh o) s = .next (after .ftanh m x) ∧ holds .ftanh m x) ∧
    (∃ m x : VReg, exec (.fsigm o) s = .next (after .fsigm m x) ∧ holds .fsigm m x) ∧
    (∃ m x : VReg, exec (.ferf o) s = .next (after .ferf m x) ∧ holds .ferf m x)) ∧
  (∀ t y : Nat, t < 3 →
    let f := typeFmt t
    let neg := f.signBit
    let inf := f.infinity false
    let one := (f.round 0#2 false 1 0).code
    let gives := fun (m : Mnemonic) (x code : Nat) (flags : BitVec 5) =>
      (specialElement m t x y).code = code ∧ (specialElement m t x y).flags = flags
    gives .frcp 0 inf flagDivZero ∧ gives .frcp neg (neg + inf) flagDivZero ∧ gives .frcp inf 0 0#5 ∧
    gives .frcp (neg + inf) neg 0#5 ∧ gives .frsqrt 0 inf flagDivZero ∧ gives .frsqrt neg (neg + inf) flagDivZero ∧
    gives .frsqrt (neg + one) f.canonical flagInvalid ∧ gives .frsqrt inf 0 0#5 ∧ gives .fnFsqrt neg neg 0#5 ∧
    gives .fnFsqrt (neg + one) f.canonical flagInvalid ∧ gives .fexp2 (neg + inf) 0 0#5 ∧ gives .fexp2 inf inf 0#5 ∧
    gives .fexp (neg + inf) 0 0#5 ∧ gives .fexp inf inf 0#5 ∧
    (∀ m ∈ [Mnemonic.flog2, .flog], gives m 0 (neg + inf) flagDivZero ∧ gives m neg (neg + inf) flagDivZero ∧
      gives m (neg + one) f.canonical flagInvalid ∧ gives m one 0 0#5) ∧
    (∀ m ∈ [Mnemonic.fsin, .ftanh, .ferf], gives m 0 0 0#5 ∧ gives m neg neg 0#5) ∧
    (∀ m ∈ [Mnemonic.fsin, .fcos], gives m inf f.canonical flagInvalid ∧ gives m (neg + inf) f.canonical flagInvalid) ∧
    (∀ m ∈ [Mnemonic.ftanh, .ferf], gives m inf one 0#5 ∧ gives m (neg + inf) (neg + one) 0#5) ∧
    gives .fsigm (neg + inf) 0 0#5 ∧ gives .fsigm inf one 0#5 ∧
    (∀ m ∈ [Mnemonic.frcp, .frsqrt, .fnFsqrt, .fexp2, .flog2, .fexp, .flog, .fsin, .fcos, .ftanh, .fsigm, .ferf], ∀ x,
      (f.decode x).isNan = true →
        gives m x f.canonical (if (f.decode x).isSignalling then flagInvalid else 0#5)))

/-- The sort forms exchange the keys of a pair, and its payloads with them, exactly when its lower element is active and
the upper one precedes it; keys and payloads of no exchanged pair stay, and with 2^J
at or above the number of elements nothing changes (R188, R189, R349). The order that decides is R188's: a key that is no NaN before
one that is; of two that are none the lesser first, or descending the greater, −0 below +0 and integers signed; of equal keys, or two NaNs,
the one of the lesser payload, where there is one. No two elements precede each other, and without a payload equal keys do not.
The model's own are: an element that does not exchange, an inactive or unpaired one too, is rewritten with the value read at issue
(log 69), and which write stands where K and P name one register (log 65). -/
def Obligations.SortFormsExchangeTheirPairs : Prop :=
  (∀ (s : State) (o : SortOps),
    let v := s.sortSlot o
    let step := 2 ^ o.j.toNat
    let key := elemAt v.k v.size
    let pay := elemAt v.p v.size
    let on := fun (k : Nat) => match o.guard with
      | none => true
      | some g => (s.rQ g.q.toNat).getLsbD (v.size / 8 * k) != g.neg
    let put := fun (t : State) (r : Nat) (mask value : VReg) => t.result (.v r) 2 mask value
    let within := fun (i : Instr) (desc : Nat → Bool) =>
      let swap := fun (k : Nat) => on k = true ∧ k + step < v.n ∧
        precedes v.t v.size (desc k) v.payload (key (k + step)) (pay (k + step)) (key k) (pay k) = true
      (v.n ≤ step → exec i s = .next s) ∧
      (step < v.n → ∃ (m1 x1 m2 x2 : VReg) (f g : Nat → Nat),
        exec i s = .next (if o.p = 0x7F#7 then put s o.k.toNat m1 x1 else put (put s o.k.toNat m1 x1) o.p.toNat m2 x2) ∧
        holdsElements m1 x1 v.size v.n f ∧ holdsElements m2 x2 v.size v.n g ∧
        (∀ k, k.testBit o.j.toNat = false → swap k →
          f k = key (k + step) ∧ f (k + step) = key k ∧ g k = pay (k + step) ∧ g (k + step) = pay k) ∧
        (∀ k, k.testBit o.j.toNat = false → ¬swap k →
          f k = key k ∧ f (k + step) = key (k + step) ∧ g k = pay k ∧ g (k + step) = pay (k + step)))
    let across := fun (i : Instr) (desc : Bool) =>
      let key2 := elemAt v.k2 v.size
      let pay2 := elemAt v.p2 v.size
      let swap := fun (k : Nat) => on k && precedes v.t v.size desc v.payload (key2 k) (pay2 k) (key k) (pay k)
      ∃ m1 x1 m2 x2 m3 x3 m4 x4 : VReg,
        exec i s = .next (let t := put (put s o.k.toNat m1 x1) (o.k.toNat + 1) m2 x2
          if o.p = 0x7F#7 then t else put (put t o.p.toNat m3 x3) (o.p.toNat + 1) m4 x4) ∧
        holdsElements m1 x1 v.size v.n (fun k => if swap k then key2 k else key k) ∧
        holdsElements m2 x2 v.size v.n (fun k => if swap k then key k else key2 k) ∧
        holdsElements m3 x3 v.size v.n (fun k => if swap k then pay2 k else pay k) ∧
        holdsElements m4 x4 v.size v.n (fun k => if swap k then pay k else pay2 k)
    within (.scxd o) (fun _ => true) ∧ within (.scxa o) (fun _ => false) ∧
    within (.scxb o) (fun k => !k.testBit (o.x.toNat + 1)) ∧ across (.scx2d o) true ∧ across (.scx2a o) false) ∧
  (∀ (t size : Nat) (desc payload : Bool) (x px y py : Nat),
    ¬(precedes t size desc payload x px y py = true ∧ precedes t size desc payload y py x px = true) ∧
    precedes t size desc false x px x py = false) ∧
  (∀ (t : Nat) (desc payload : Bool) (x px y py : Nat), t < 3 ∨ t = 5 ∨ t = 6 → x < 2 ^ typeSize t → y < 2 ^ typeSize t →
    let size := typeSize t
    let f := typeFmt t
    let int := fun (i : Nat) => if i < 2 ^ (size - 1) then (i : Int) else (i : Int) - 2 ^ size
    let nan := fun (i : Nat) => decide (t < 3) && (f.decode i).isNan
    let first := precedes t size desc payload x px y py
    (nan x = true → nan y = false → first = false) ∧ (nan x = false → nan y = true → first = true) ∧
    (nan x = false → nan y = false → t < 3 →
      (below (f.decode x) (f.decode y) → first = !desc) ∧ (below (f.decode y) (f.decode x) → first = desc) ∧
      (x = f.signBit → y = 0 → first = !desc) ∧ (x = 0 → y = f.signBit → first = desc)) ∧
    (3 ≤ t → (int x < int y → first = !desc) ∧ (int y < int x → first = desc)) ∧
    (x = y ∨ (nan x = true ∧ nan y = true) → first = (payload && decide (int px < int py))))


/-! ## Memory lanes (spec/11, spec/03) -/

/-- The scalar loads land the bytes of their run 12 steps later, sign- or zero-extended (R194); lv writes byte j of v[E] from
cell off + j and keeps the bits above (R195); ldx and lvx read under the tag of their tag register, 14 steps (R197, R70);
lacq moves 8 bytes as ld does (R202). A pick that has not been stopped finds its run as it stands; the rest of a stopped pick finds what
the pick has written as it was before, where nobody has written since (R192, R253). -/
def Obligations.LoadsLandTheirBytes : Prop :=
  ∀ (s : State) (o : MemSeg) (x : MemCross) (q : MemAcq),
    let all := fun (mask : VReg) => mask = BitVec.allOnes 1024
    let scalar := fun (i : Instr) (size : Nat) (signed : Bool) =>
      loads s i o.seg.toNat s.rTag (offsetOf s o.o o.imm6 size) size (.s o.e.toNat) 12 (fun mask value bs => all mask ∧
        value.extractLsb' 0 64 = (if signed then (BitVec.ofNat (8 * size) (leNat bs)).signExtend 64
          else BitVec.ofNat 64 (leNat bs)))
    let vector := fun (i : Instr) (size : Nat) =>
      loads s i o.seg.toNat s.rTag (offsetOf s o.o o.imm6 size) size (.v o.e.toNat) 12 holdsBytes
    let tag := ((s.rS x.tagReg).extractLsb' 0 12).toNat
    scalar (.lb o) 1 true ∧ scalar (.lbu o) 1 false ∧ scalar (.lh o) 2 true ∧ scalar (.lhu o) 2 false ∧
    scalar (.lw o) 4 true ∧ scalar (.lwu o) 4 false ∧ scalar (.ld o) 8 false ∧
    vector (.lvW256 o) 32 ∧ vector (.lvW512 o) 64 ∧ vector (.lvW1024 o) 128 ∧
    loads s (.ldx x) x.seg.toNat tag (offsetOf s x.o 0#6 8) 8 (.s x.e.toNat) 14 (fun mask value bs =>
      all mask ∧ value.extractLsb' 0 64 = BitVec.ofNat 64 (leNat bs)) ∧
    loads s (.lvx x) x.seg.toNat tag (offsetOf s x.o 0#6 128) 128 (.v x.e.toNat) 14 holdsBytes ∧
    loads s (.lacq q) q.seg.toNat s.rTag (offsetOf s q.o 0#6 8) 8 (.s q.e.toNat) 12 (fun mask value bs =>
      all mask ∧ value.extractLsb' 0 64 = BitVec.ofNat 64 (leNat bs)) ∧
    (s.me.resuming = none → ∀ r : LoomRun, r.unseen s.keptBytes = r) ∧
    (∀ (r : LoomRun) (g : Segment) (k : KeptBytes) (seg tg y : Nat), Tab.find? r.segs seg = some g → k.place = .segment seg tg →
      (∀ v ∈ r.overlays, v.tag < 4096 ∧ v.line < 65536) → tg < 4096 → k.addr + k.old.length ≤ 4194304 →
      k.new.length = k.old.length → (r.unseen [k]).cell seg tg y =
        if k.addr ≤ y ∧ y < k.addr + k.old.length ∧ r.cell seg tg y = k.new.getD (y - k.addr) 0#8 then k.old.getD (y - k.addr) 0#8
        else r.cell seg tg y)

/-- The frame of the loads: with no fault and no error in their lines, no byte of any memory and no register changes until
the result lands, and the pick in progress makes no write. -/
def Obligations.LoadsChangeNoMemory : Prop :=
  ∀ (i : Instr) (s t s1 : State) (a : Access) (x : Slot),
    i.slot = some x → x.m ∈ [Mnemonic.lb, .lbu, .lh, .lhu, .lw, .lwu, .ld, .lvW256, .lvW512, .lvW1024, .lvg, .ldx, .lvx, .lacq] →
    s.slotAccess x = some a → s.myFault a = none → readsClean s a s1 → exec i s = .next t →
    memoryAsBefore s t ∧ registersAsBefore s.me t.me ∧ t.issue = s.issue ∧ t.me.fflags = s.me.fflags

/-- The stores: with no fault, the pick writes the low bytes of s[E], or of v[E], as they stood at issue, at the offset and
under ct, and nothing else changes; srel, and a fence that is full or a release, first make
every earlier access perform at their scope, an acquire fence every earlier read, of which the queued vldr wait (R83); a fence
with mask 0 has no effect (R194, R195, R200, R202, R352). Where the pick makes its writes, such a slot leaves no access waiting at
the shared banks of the cluster, and from device scope upward none in the far queue of its stack: all have performed; below it those
queued reach their targets without fail. That this comes when the pick issues is the model's (log 10). -/
def Obligations.StoresWriteTheirBytes : Prop :=
  ∀ (s : State) (k : Issue) (o : MemSeg) (q : MemAcq) (f : FenceOps), s.issue = some k →
    let scalar := fun (i : Instr) (size : Nat) =>
      stores s k i o.seg.toNat (offsetOf s o.o o.imm6 size) size
        ((List.range size).map (fun j => byteOf (s.rS (o.e.extractLsb' 0 6)) j))
    let vector := fun (i : Instr) (size : Nat) =>
      stores s k i o.seg.toNat (offsetOf s o.o o.imm6 size) size
        ((List.range size).map (fun j => byteOf (s.rV o.e.toNat) j))
    scalar (.sb o) 1 ∧ scalar (.sh o) 2 ∧ scalar (.sw o) 4 ∧ scalar (.sd o) 8 ∧
    vector (.svW256 o) 32 ∧ vector (.svW512 o) 64 ∧ vector (.svW1024 o) 128 ∧
    (s.myFault (runAccess q.seg.toNat s.rTag (offsetOf s q.o 0#6 8) 8 8 true) = none →
      exec (.srel q) s = .next (writesQueued s k [.release q.scope.toNat,
        .segment q.seg.toNat s.rTag (offsetOf s q.o 0#6 8)
          ((List.range 8).map (fun j => byteOf (s.rS (q.e.extractLsb' 0 6)) j))])) ∧
    (f.mask = 0#16 → exec (.fence f) s = .next s) ∧
    (f.mask ≠ 0#16 → f.kind ≠ 1#2 → exec (.fence f) s = .next (writesQueued s k [.release f.scope.toNat])) ∧
    (f.mask ≠ 0#16 → f.kind = 1#2 → exec (.fence f) s = .next (writesQueued s k [.release 0])) ∧
    (∀ scope, s.cur.loom < 1280 → s.cur.stream = none →
      let t := s.commitWrite (.release scope)
      performedEarlier s t s.cur.loom scope ∧ registersAsBefore s.me t.me ∧ (scope = 5 → t.me.sysReleased = true))

/-- lvg and svg (R196): element i whose offset word has bit 31 clear moves the word at off plus bits 30:0 of its offset word;
lvg puts zero into the other words, svg skips them; svg writes in ascending element. -/
def Obligations.GatherAndScatterMoveTheirWords : Prop :=
  ∀ (s s1 : State) (k : Issue) (o : MemSeg),
    let base := offsetOf s o.o o.imm6 4
    let word := fun (x : VReg) (i : Nat) => x.extractLsb' (32 * i) 32
    let moves := fun (x : VReg) (i : Nat) => (word x i).getLsbD 31 = false
    let elems := fun (x : VReg) => (List.range 32).filter (fun i => !(word x i).getLsbD 31)
    let at_ := fun (x : VReg) (i : Nat) => base + (word x i).toNat % 2 ^ 31
    let access := fun (x : VReg) (write : Bool) =>
      ({ seg := o.seg.toNat, tag := s.rTag, offs := (elems x).map (at_ x), size := 4, align := 4, write := write } : Access)
    let gather := s.rV o.e.toNat
    let scatter := s.rV (o.e.toNat + 1)
    (s.myFault (access gather false) = none → readsClean s (access gather false) s1 →
      ∃ value : VReg, exec (.lvg o) s = .next (s1.result (.v o.e.toNat) 12 (BitVec.allOnes 1024) value) ∧
        ∀ i, i < 32 →
          (moves gather i → word value i = BitVec.ofNat 32 (leNat (bytesAt s o.seg.toNat s.rTag (at_ gather i) 4))) ∧
          (¬moves gather i → word value i = 0#32)) ∧
    (s.issue = some k → s.myFault (access scatter true) = none →
      exec (.svg o) s = .next (writesQueued s k ((elems scatter).map (fun i =>
        .segment o.seg.toNat s.rTag (at_ scatter i) ((List.range 4).map (fun j => byteOf (word (s.rV o.e.toNat) i) j))))))

/-- The atomics (Table 11.2): one indivisible read and write at the place of the slot among the pick's writes; the old value
lands 16 steps later, sign-extended, or zero-extended for aminu, amaxu and the 64-bit forms; a compare-and-swap whose
comparison fails is a read alone, but for the overlay that it materialises under a tag (R63, R198, R199). -/
def Obligations.AtomicsGiveTheirTable : Prop :=
  ∀ (s s1 : State) (k : Issue) (r : LoomRun) (o : MemSeg), s.issue = some k → s.atomicRun = some r →
    let gives := fun (i : Instr) (size : Nat) (signed : Bool) (f : Nat → Nat → Nat → Option Nat) =>
      let off := offsetOf s o.o o.imm6 size
      let old := leNat (r.cells o.seg.toNat s.rTag off size)
      let x := (s.rS (o.e.extractLsb' 0 6)).toNat % 2 ^ (8 * size)
      let y := (s.rS (o.e.extractLsb' 0 6 + 1#6)).toNat % 2 ^ (8 * size)
      let tagged := s.myRun.any (fun u => (Tab.find? u.segs o.seg.toNat).any (fun g => g.tagged && decide (s.rTag ≠ 0)))
      let s0 := match f old x y with
        | some v => writesQueued s k [.segment o.seg.toNat s.rTag off (leBytes size v)]
        | none => if tagged then writesQueued s k [.segment o.seg.toNat s.rTag off (leBytes size old)] else s
      s.myFault (runAccess o.seg.toNat s.rTag off size size true) = none →
      readsClean s0 (runAccess o.seg.toNat s.rTag off size size false) s1 →
      ∃ value : VReg, exec (i) s = .next (s1.result (.s o.e.toNat) 16 (BitVec.allOnes 1024) value) ∧
        value.extractLsb' 0 64 = (if signed then (BitVec.ofNat (8 * size) old).signExtend 64 else BitVec.ofNat 64 old)
    let int := fun (x : Nat) => if x < 2 ^ 31 then (x : Int) else (x : Int) - 2 ^ 32
    gives (.aadd o) 4 true (fun old x _ => some ((old + x) % 2 ^ 32)) ∧
    gives (.afadd o) 4 true (fun old x _ =>
      some (((binary32.decode old).add (binary32.decode x) 0#2).round binary32 0#2).code) ∧
    gives (.amin o) 4 true (fun old x _ => some (if int x < int old then x else old)) ∧
    gives (.amax o) 4 true (fun old x _ => some (if int old < int x then x else old)) ∧
    gives (.aminu o) 4 false (fun old x _ => some (Nat.min old x)) ∧
    gives (.amaxu o) 4 false (fun old x _ => some (Nat.max old x)) ∧
    gives (.aand o) 4 true (fun old x _ => some (old &&& x)) ∧ gives (.aor o) 4 true (fun old x _ => some (old ||| x)) ∧
    gives (.axor o) 4 true (fun old x _ => some (old ^^^ x)) ∧ gives (.axch o) 4 true (fun _ x _ => some x) ∧
    gives (.acas o) 4 true (fun old x y => if old = x then some y else none) ∧
    gives (.aadd64 o) 8 false (fun old x _ => some ((old + x) % 2 ^ 64)) ∧
    gives (.axch64 o) 8 false (fun _ x _ => some x) ∧
    gives (.acas64 o) 8 false (fun old x y => if old = x then some y else none)

/-- What the writes of a pick do when it makes them. A write of the current launch's segment on its loom: a read under the same tag finds each byte
at its place, and every other byte of that instance, of every other segment, launch and loom and of far memory reads as
before. A write under a tag of a tagged segment changes no other instance (R61, R63); a write of the base is seen under a
tag exactly where the tag shows no overlay of the line (R62, R63). The overlays' tags and lines lie in their ranges. A vstr
joins the queue of the shared banks' owner, last (R82); a far write its stack's queue, last (R264), or, to the host, the host's
memory at once (R393), not relaxed where the sequencer has made a release at sys scope before it (R270); a bbind binds its slot (R205). None of these three changes another byte. -/
def Obligations.SegmentWritesReachTheirInstance : Prop :=
  ∀ (s : State) (r : LoomRun) (g : Segment) (seg tag off : Nat) (bs : List Byte),
    (s.loom s.cur.loom).run s.me.launch = some r → Tab.find? r.segs seg = some g →
    (∀ o ∈ r.overlays, o.tag < 4096 ∧ o.line < 65536) → tag < 4096 → off + bs.length ≤ 4194304 →
    let t := s.commitWrite (.segment seg tag off bs)
    let instance_ := fun (x : Nat) => if g.tagged then x else 0
    let inside := fun (x : Nat) => off ≤ x ∧ x < off + bs.length
    let before := fun (sg tg x : Nat) => localByte s s.cur.loom s.me.launch sg tg x
    let after := fun (sg tg x : Nat) => localByte t s.cur.loom s.me.launch sg tg x
    (∀ x, inside x → after seg tag x = some (bs.getD (x - off) 0#8)) ∧
    (∀ tg x, ¬inside x → after seg tg x = before seg tg x) ∧ (∀ sg tg x, sg ≠ seg → after sg tg x = before sg tg x) ∧
    (∀ tg x, instance_ tag ≠ 0 → tg < 4096 → instance_ tg ≠ instance_ tag → after seg tg x = before seg tg x) ∧
    (∀ tg x, instance_ tag = 0 → instance_ tg ≠ 0 → inside x →
      ((r.shown seg tg (x / 64)).isSome = true → after seg tg x = before seg tg x) ∧
      ((r.shown seg tg (x / 64)).isNone = true → after seg tg x = some (bs.getD (x - off) 0#8))) ∧
    (∀ l id sg tg x, l ≠ s.cur.loom ∨ id ≠ s.me.launch → localByte t l id sg tg x = localByte s l id sg tg x) ∧
    farAsBefore s t ∧
    (∀ (owner : Nat) (a : SharedAccess),
      let t := s.commitWrite (.shared owner a)
      (t.loom owner).shared = (s.loom owner).shared ++ [a] ∧ (∀ o, o ≠ owner → t.loom o = s.loom o) ∧ memoryAsBefore s t) ∧
    (∀ f : FarWrite,
      let t := s.commitWrite (.far f)
      (f.kind ≠ 3 → memoryAsBefore s t ∧ ∃ e, s.cycle < e ∧ Tab.get t.farQueues (f.loom / 320) [] =
        Tab.get s.farQueues (f.loom / 320) [] ++ [{ f with endsAt := e }]) ∧
      (f.kind = 3 → s.linkDown = false → t.me.sysReleased = false ∧ t.hostWrites = (f.addr, !s.me.sysReleased) :: s.hostWrites ∧
        (∀ j, j < f.bytes.length → hostByte t (f.addr + j) = f.bytes.getD j 0#8) ∧
        (∀ a, (a < f.addr ∨ f.addr + f.bytes.length ≤ a) → hostByte t a = hostByte s a) ∧
        (∀ a, tier2Byte t a = tier2Byte s a) ∧ ∀ p a, peerByte t p a = peerByte s p a)) ∧
    (∀ (slot : Nat) (ref : BarrierRef),
      let t := s.commitWrite (.bind slot ref)
      memoryAsBefore s t ∧ ∃ r1, (t.loom s.cur.loom).run s.me.launch = some r1 ∧
        ∀ x, Tab.find? r1.bindings x = if x = slot then some ref else Tab.find? r.bindings x)

/-- The checks of a segment access, in the order of Table 24.6: an undeclared segment, a write to a readonly one, a write
under a tag that is not live, a misaligned offset, an offset past the declared size; each gives its code with OUTC 0, and the
offset of the first element that fails it (R350). Every load, store, gather, scatter and atomic of a segment that meets one stops its
pick precisely, with the segment, the tag and the offset in OPERAND (R314, R350). Of an lvg or svg that has no element with bit 31 clear
nothing is said here (log 87). -/
def Obligations.AccessChecksFollowTheirTable : Prop :=
  (∀ (s : State) (r : LoomRun) (a : Access), (s.loom s.cur.loom).run s.me.launch = some r → a.offs ≠ [] →
    let off := a.offs.headD 0
    let fails := fun (code at_ : Nat) => s.myFault a = some (code, 0, at_)
    (Tab.find? r.segs a.seg = none → fails 0x212 off) ∧
    (∀ g, Tab.find? r.segs a.seg = some g →
      let tagged := g.tagged = true ∧ a.tag ≠ 0
      let dead := tagged ∧ s.tagLive s.cur.loom s.myTenancy s.me.launch a.tag = false
      (a.write = true → g.readonly = true → fails 0x213 off) ∧
      (a.write = true → g.readonly = false → dead → fails 0x302 off) ∧
      ((a.write = true → g.readonly = false ∧ ¬dead) →
        (∀ pre x post, a.offs = pre ++ x :: post → (∀ y ∈ pre, y % a.align = 0) → x % a.align ≠ 0 → fails 0x210 x) ∧
        ((∀ y ∈ a.offs, y % a.align = 0) → ∀ pre x post, a.offs = pre ++ x :: post →
          (∀ y ∈ pre, y + a.size ≤ g.size) → g.size < x + a.size → fails 0x211 x)))) ∧
  (∀ (s : State) (o : MemSeg) (x : MemCross) (q : MemAcq),
    let stops := fun (i : Instr) (a : Access) => ∀ code outc at_, s.myFault a = some (code, outc, at_) →
      exec i s = .next (s.stopSlot code outc (operandOf a.seg a.tag at_))
    let run := fun (write : Bool) (size : Nat) (i : Instr) =>
      stops i (runAccess o.seg.toNat s.rTag (offsetOf s o.o o.imm6 size) size size write)
    let cross := fun (i : Instr) (size : Nat) =>
      stops i (runAccess x.seg.toNat ((s.rS x.tagReg).extractLsb' 0 12).toNat (offsetOf s x.o 0#6 size) size size false)
    let elements := fun (i : Instr) (v : VReg) (write : Bool) => stops i
      { seg := o.seg.toNat, tag := s.rTag, size := 4, align := 4, write := write
        offs := ((List.range 32).filter (fun k => !(v.extractLsb' (32 * k) 32).getLsbD 31)).map (fun k =>
          offsetOf s o.o o.imm6 4 + (v.extractLsb' (32 * k) 32).toNat % 2 ^ 31) }
    run false 1 (.lb o) ∧ run false 1 (.lbu o) ∧ run false 2 (.lh o) ∧ run false 2 (.lhu o) ∧ run false 4 (.lw o) ∧
    run false 4 (.lwu o) ∧ run false 8 (.ld o) ∧ run false 32 (.lvW256 o) ∧ run false 64 (.lvW512 o) ∧ run false 128 (.lvW1024 o) ∧
    run true 1 (.sb o) ∧ run true 2 (.sh o) ∧ run true 4 (.sw o) ∧ run true 8 (.sd o) ∧
    run true 32 (.svW256 o) ∧ run true 64 (.svW512 o) ∧ run true 128 (.svW1024 o) ∧
    cross (.ldx x) 8 ∧ cross (.lvx x) 128 ∧
    elements (.lvg o) (s.rV o.e.toNat) false ∧ elements (.svg o) (s.rV (o.e.toNat + 1)) true ∧
    stops (.lacq q) (runAccess q.seg.toNat s.rTag (offsetOf s q.o 0#6 8) 8 8 false) ∧
    stops (.srel q) (runAccess q.seg.toNat s.rTag (offsetOf s q.o 0#6 8) 8 8 true) ∧
    (∀ i ∈ [Instr.aadd o, .afadd o, .amin o, .amax o, .aminu o, .amaxu o, .aand o, .aor o, .axor o, .axch o, .acas o], run true 4 i) ∧
    (∀ i ∈ [Instr.aadd64 o, .axch64 o, .acas64 o], run true 8 i))

/-- The barrier-object slots (R203 to R206, Table 27.2): binit writes PH 0, ER 0, EXP, ARR 0, PB and zero in the reserved bits;
btx adds to PB, or sets ER and the greatest PB and writes record 0x802 when the sum is too great; bbind binds a slot from the
next step on. A btx reads its object: an error in its line lands instead, 16 steps later (R316, R371). An object's 16 bytes hold its fields at their bits (Table 11.8); an arrival adds to ARR, or sets ER and ARR to
EXP past EXP; a credit takes from PB, or sets ER and PB to 0; either completes the phase exactly when ARR = EXP and PB = 0.
-/
def Obligations.BarrierObjectSlotsGiveTheirUpdates : Prop :=
  (∀ (s : State) (k : Issue) (o : MemSeg), s.issue = some k →
    let off := offsetOf s o.o o.imm6 16
    let x := s.rS (o.e.extractLsb' 0 6)
    let exp := (x.extractLsb' 0 16).toNat
    let free := s.objectFault o.seg.toNat off = none
    let old := s.objectHere o.seg.toNat off
    let put := fun (b : BarrierObj) => writesQueued s k [.segment o.seg.toNat 0 off b.bytes]
    let added := old.pb + (x.extractLsb' 0 36).toNat
    let object := s.readObject s.me.launch s.myTenancy { loom := s.cur.loom, seg := o.seg.toNat, off := off }
    let puts := fun (t : State) (b : BarrierObj) => writesQueued t k [.segment o.seg.toNat 0 off b.bytes]
    let l := 16 * (s.cur.loom / 16) + (x.extractLsb' 8 4).toNat
    (free → exp ≠ 0 → ∃ b : BarrierObj, exec (.binit o) s = .next (put b) ∧ b.ph = 0#4 ∧ b.er = false ∧ b.exp = exp ∧
      b.arr = 0 ∧ b.pb = (x.extractLsb' 16 36).toNat ∧ b.low = 0#55) ∧
    (free → exp = 0 → exec (.binit o) s = .next (s.stopSlot 0x214 0 (operandOf o.seg.toNat s.rTag off))) ∧
    (∀ s0, free → object = (none, s0) → added < 2 ^ 36 → exec (.btx o) s = .next (puts s0 { old with pb := added })) ∧
    (∀ s0, free → object = (none, s0) → 2 ^ 36 ≤ added → exec (.btx o) s =
      .next ((puts s0 { old with er := true, pb := 2 ^ 36 - 1 }).report s.cur.loom
        s.myTenancy s.cur.seq s.cur.lane.index 0x802 s.cur.pick s.cur.step (operandOf o.seg.toNat 0 off)
        (some s.me.launch))) ∧
    (∀ e s0, free → object = (some e, s0) → exec (.btx o) s = .next (s0.resultFailed (.s 0) 16 e)) ∧
    (∀ code outc at_, s.objectFault o.seg.toNat off = some (code, outc, at_) →
      let stop := Host.Outcome.next (s.stopSlot code outc (operandOf o.seg.toNat s.rTag at_))
      exec (.binit o) s = stop ∧ exec (.btx o) s = stop) ∧
    (s.bindFault l o.seg.toNat off x = none → exec (.bbind o) s =
      .next (writesQueued s k [.bind (x.extractLsb' 0 8).toNat { loom := l, seg := o.seg.toNat, off := off }]))) ∧
  (∀ (o : BarrierObj) (n : Nat), 1 ≤ o.exp → o.exp < 2 ^ 16 → o.arr ≤ o.exp → o.pb < 2 ^ 36 →
    BarrierObj.ofBits (BitVec.ofNat 128 (leNat o.bytes)) = o ∧
    (o.arrive n).2.2 = decide (o.exp < o.arr + n) ∧
    (let arr := if o.exp < o.arr + n then o.exp else o.arr + n
     let er := o.er || decide (o.exp < o.arr + n)
     let done := arr = o.exp ∧ o.pb = 0
     (o.arrive n).1 = (if done then { o with er := er, arr := 0, ph := o.ph + 1#4 } else { o with er := er, arr := arr }) ∧
     ((o.arrive n).2.1 = true ↔ done)) ∧
    (o.credit n).2.2 = decide (o.pb < n) ∧
    (let pb := o.pb - n
     let er := o.er || decide (o.pb < n)
     let done := o.arr = o.exp ∧ pb = 0
     (o.credit n).1 = (if done then { o with er := er, pb := pb, arr := 0, ph := o.ph + 1#4 } else { o with er := er, pb := pb }) ∧
     ((o.credit n).2.1 = true ↔ done)) ∧
    (o.pend n).1.ph = o.ph ∧ (o.pend n).1.arr = o.arr ∧ (o.pend n).1.exp = o.exp)


/-- The checks of a vault command in the order of Table 24.8, and what a permitted one does (R207, R353): 0x501 for a bank that is
not the sequencer's, 0x504 for a vld or vst of a closed bank and a vact or vref of an open one, 0x503 for a distance broken, 0x502
where mb names the bank that ma has named; each with OUTC 1, the bank and the row, group or column in OPERAND. vact opens a row of
the closed bank, vpre closes an open bank and starts no distance at a closed one, vref refreshes a row group of the closed bank. The
distances are Table 5.2's: 64
steps from vact to vact, 16 from vpre to vact or vref, 48 from vref to vact or vref, 24 from vact to the first access, 8 from
an access to vpre, counted over the sequencer's activations in the launch (R76). mb is checked against its bank as ma found it. -/
def Obligations.VaultRowCommandsGiveTheirEffect : Prop :=
  ∀ (s : State) (o : VaultRow) (g : VaultRef) (c : VaultCol),
    let n := s.me.past + s.cur.step
    let far := fun (x : Option Nat) (d : Nat) => x.all (fun y => decide (y + d ≤ n))
    let named := fun (b : Nat) => s.updIssue (fun i => { i with vaultBank := some (b, (s.loom s.cur.loom).bank b) })
    let ports := (s.issue.bind (fun i => i.vaultBank)).filter (fun _ => s.cur.lane == .mb)
    let bank := fun (b : Nat) => ((ports.filter (fun k => k.1 == b)).map (fun k => k.2)).getD ((s.loom s.cur.loom).bank b)
    let refusal := fun (b : Nat) (wrong near : Bool) =>
      if s.me.banks.getLsbD b = false then some 0x501 else if wrong then some 0x504 else if near then some 0x503
      else if ports.any (fun k => k.1 == b) then some 0x502 else none
    let stops := fun (i : Instr) (b low : Nat) (r : Option Nat) => ∀ code, r = some code →
      exec i s = .next (s.stopSlot code 1 (BitVec.ofNat 64 (b * 2 ^ 32 + low)))
    let vact := let k := bank o.bank.toNat
      refusal o.bank.toNat k.row.isSome !(far k.lastAct 64 && far k.lastPre 16 && far k.lastRef 48)
    let vpre := let k := bank o.bank.toNat
      refusal o.bank.toNat false (k.row.isSome && !far k.lastAccess 8)
    let vref := let k := bank g.bank.toNat
      refusal g.bank.toNat k.row.isSome !(far k.lastPre 16 && far k.lastRef 48)
    let access := let k := bank c.bank.toNat
      refusal c.bank.toNat k.row.isNone (!k.firstAccess && !far k.lastAct 24)
    (vact = none → exec (.vact o) s = .next ((named o.bank.toNat).updBank o.bank.toNat (fun b =>
        { b with row := some o.row.toNat, lastAct := some n, firstAccess := false }))) ∧
    (vpre = none → exec (.vpre o) s = .next ((named o.bank.toNat).updBank o.bank.toNat (fun b =>
        if b.row.isSome then { b with row := none, lastPre := some n } else b))) ∧
    (vref = none → ∃ t, exec (.vref g) s = .next t ∧ ((t.loom s.cur.loom).bank g.bank.toNat).lastRef = some n ∧
        ((t.loom s.cur.loom).bank g.bank.toNat).row = ((s.loom s.cur.loom).bank g.bank.toNat).row ∧
        Tab.get (t.loom s.cur.loom).refresh (g.bank.toNat * 8 + g.group.toNat) 0 = s.cycle ∧ memoryAsBefore s t) ∧
    stops (.vact o) o.bank.toNat o.row.toNat vact ∧ stops (.vpre o) o.bank.toNat o.row.toNat vpre ∧
    stops (.vref g) g.bank.toNat g.group.toNat vref ∧
    (let column := (c.col.toNat + s.cur.offset / 128) % 64
     stops (.vld c) c.bank.toNat column access ∧ stops (.vst c) c.bank.toNat column access)

/-- vld and vst move 128 bytes between the open row and v[E], 256 with v[E + 1] for ORD 3 and a column below 32, in the byte
order of R80: byte j of the registers is the row byte that `at_` names. With nothing in the lines in error vld lands 20 steps
later; vst writes those bytes of the vault and no other byte of a vault, a segment or tier 2 (R207), and under an order that writes
parts of lines it stops with 0x911 where one of them is poisoned (R369). A repetition of a held one goes on at its hidden offset
(R34), which the model reads as 128 bytes to a column, past column 63 from column 0 (log 29). -/
def Obligations.VaultColumnsMoveTheirBytes : Prop :=
  ∀ (s s1 : State) (o : VaultCol) (row : Nat),
    let b := o.bank.toNat
    let c := (o.col.toNat + s.cur.offset / 128) % 64
    let bank := (s.loom s.cur.loom).bank b
    let two := o.ord = 3#2 ∧ c < 32
    let at_ := fun (j : Nat) => b * 2097152 + row * 8192 +
      (if o.ord = 0#2 then 128 * c + j
      else if o.ord = 1#2 then 128 * (j % 64) + c + 64 * (j / 64)
      else if o.ord = 2#2 then 128 * (j / 2) + 2 * c + j % 2
      else 128 * (j / 4 + 32 * (c / 32)) + 4 * (c % 32) + j % 4)
    let count := if two then 256 else 128
    let n := s.me.past + s.cur.step
    let named := s.updIssue (fun i => { i with vaultBank := some (b, bank) })
    let noted := named.updBank b (fun x => { x with firstAccess := true, lastAccess := some n })
    s.me.banks.getLsbD b = true → bank.row = some row → row < 256 →
    (bank.firstAccess = false → ∀ x, bank.lastAct = some x → x + 24 ≤ n) →
    (s.cur.lane = .mb → ∀ i k, s.issue = some i → i.vaultBank = some k → k.1 ≠ b) →
    (noted.checkVault s.cur.loom s.myTenancy (vaultLines ((List.range count).map at_)) = (none, s1) →
      ∃ x y : VReg,
        exec (.vld o) s = .next (State.countMe (if two then (s1.result (.v o.e.toNat) 20 (BitVec.allOnes 1024) x).result
          (.v (o.e.toNat + 1)) 20 (BitVec.allOnes 1024) y else s1.result (.v o.e.toNat) 20 (BitVec.allOnes 1024) x) 21 count) ∧
        (∀ j, j < 128 → byteOf x j = vaultByte s s.cur.loom (at_ j)) ∧
        (two → ∀ j, j < 128 → byteOf y j = vaultByte s s.cur.loom (at_ (128 + j)))) ∧
    (o.ord ≠ 0#2 → (∃ j, j < count ∧ at_ j / 64 ∈ (s.loom s.cur.loom).vaultPoison) →
      ∃ operand, exec (.vst o) s = .next (named.stopSlot 0x911 1 operand)) ∧
    ((∀ j, j < count → at_ j / 64 ∉ (s.loom s.cur.loom).vaultPoison) → ∃ t, exec (.vst o) s = .next t ∧
      (∀ j, j < 128 → vaultByte t s.cur.loom (at_ j) = byteOf (s.rV o.e.toNat) j) ∧
      (two → ∀ j, j < 128 → vaultByte t s.cur.loom (at_ (128 + j)) = byteOf (s.rV (o.e.toNat + 1)) j) ∧
      (∀ l a, (l ≠ s.cur.loom ∨ ∀ j, j < count → a ≠ at_ j) → vaultByte t l a = vaultByte s l a) ∧
      registersAsBefore s.me t.me ∧ (∀ a, tier2Byte t a = tier2Byte s a) ∧
      (∀ l id sg tg x, localByte t l id sg tg x = localByte s l id sg tg x))

/-- vldr and vstr reach a shared bank of the loom or of a grid neighbour through the location word of s[O] (Table 5.5): the
access of a vldr joins the owner's queue, its data landing no earlier than 20 steps later, and that of a vstr is one of the pick's
writes, by which it joins that queue when the pick makes them (R82, R192, R208). A repetition of a held one is its offset further (R34). A word that names another
loom, has reserved bits set or an offset that is no multiple of 128 stops the pick with 0x505; the low bits of OPERAND are the
column of its offset, which is the model's reading (log 40). -/
def Obligations.SharedBankSlotsJoinTheirQueue : Prop :=
  ∀ (s : State) (k : Issue) (o : MemFar),
    let w := s.rS o.o + BitVec.ofNat 64 s.cur.offset
    let owner := 16 * (s.cur.loom / 16) + (w.extractLsb' 28 4).toNat
    let addr := (20 + (w.extractLsb' 21 3).toNat) * 2097152 + (w.extractLsb' 0 21).toNat
    let good := w.extractLsb' 32 32 = 0#32 ∧ w.extractLsb' 24 4 = 0#4 ∧ (w.extractLsb' 0 21).toNat % 128 = 0 ∧
      (owner = s.cur.loom ∨ neighbours owner s.cur.loom = true)
    let mine := fun (a : SharedAccess) => a.addr = addr ∧ a.fromLoom = s.cur.loom ∧ a.seq = s.cur.seq ∧
      a.launch = s.me.launch ∧ s.cycle < a.endsAt ∧ a.unseen = s.keptBytes
    (good → (s.loom owner).contained = false → s.cur.stream = none →
      ∃ (t : State) (a : SharedAccess), exec (.vldr o) s = .next t ∧
        (t.loom owner).shared = (s.loom owner).shared ++ [a] ∧ mine a ∧ a.write = false ∧
        (s.me.group.find? (fun g => g.dest == .v o.e.toNat) = none → ∃ l : Landing, t.me.flight = s.me.flight ++ [l] ∧
          l.dest = .v o.e.toNat ∧ l.step = s.cur.step + 20 ∧ l.data = .awaited a.id)) ∧
    (good → (s.loom owner).contained = false → s.issue = some k →
      ∃ a : SharedAccess, exec (.vstr o) s = .next (writesQueued { s with free := s.free + 1 } k [.shared owner a]) ∧
        mine a ∧ a.write = true ∧ a.bytes = (List.range 128).map (fun j => byteOf (s.rV o.e.toNat) j)) ∧
    (¬good →
      let stop := s.stopSlot 0x505 1 (BitVec.ofNat 64 ((20 + (w.extractLsb' 21 3).toNat) * 2 ^ 32 + (w.extractLsb' 7 6).toNat))
      exec (.vldr o) s = .next stop ∧ exec (.vstr o) s = .next stop)

/-- lfd and sfd are checked in the order of Table 26.5, and the first check that fails stops the pick precisely with OUTC 1,
the window index and the offset in OPERAND (R376). One that passes: lfd's data lands P steps later, or at the next step in
class 0, the codes 6 and 7 of LAT promising what class 5 does (log 39), with the bytes at the target of R86 (R87), in the rest of a
stopped pick none that the pick has written there (R253); sfd's write carries the low 8 bytes of s[E] to that target (R209), or stops with 0x911 where the line
that it writes a part of is poisoned (R369). -/
def Obligations.FarSlotsReachTheirTarget : Prop :=
  ∀ (s : State) (k : Issue) (o : MemFar),
    let d := s.rS o.o + BitVec.ofNat 64 s.cur.offset
    let off := (d.extractLsb' 0 51).toNat
    let e := s.window s.myTenancy (d.extractLsb' 51 12).toNat
    let kind := (e.extractLsb' 126 2).toNat
    let target := (e.extractLsb' 16 48).toNat * 65536 + off
    let lat := (e.extractLsb' 120 3).toNat
    let size := (e.extractLsb' 91 16).toNat * 65536
    let pass := fun (allowed : Bool) => d.getLsbD 63 = true ∧ kind ≠ 0 ∧ allowed = true ∧ off % 8 = 0 ∧ off + 8 ≤ size
    let first := fun (allowed : Bool) => if d.getLsbD 63 = false then 0x401 else if kind = 0 then 0x402
      else if allowed = false then 0x403 else if off % 8 ≠ 0 then 0x404 else 0x405
    let stop := fun (code : Nat) => s.stopSlot code 1 (operandOf (d.extractLsb' 51 12).toNat 0 off)
    (pass (e.getLsbD 125) → s.cur.stream = none → s.cur.loom < 1280 →
      ∃ (t : State) (id : Nat) (r : FarRead), exec (.lfd o) s = .next t ∧ Tab.find? t.farReads id = some r ∧
        r.target = (kind, (e.extractLsb' 79 12).toNat, target) ∧ r.issued = s.cycle ∧
        r.value = unseenBytes s.keptBytes (.far kind (e.extractLsb' 79 12).toNat) target
          (s.farSeen (s.cur.loom / 320) kind (e.extractLsb' 79 12).toNat (s.keyOf e) target 8) ∧
        (s.me.group.find? (fun g => g.dest == .s o.e.toNat) = none → ∃ l : Landing, t.me.flight = s.me.flight ++ [l] ∧
          l.dest = .s o.e.toNat ∧ l.data = .awaited id ∧
          l.step = s.cur.step + (if kind = 3 ∨ lat = 0 then 1 else 128 * 2 ^ Nat.min lat 5))) ∧
    let poisoned := s.farSeenPoison (s.cur.loom / 320) kind (e.extractLsb' 79 12).toNat target 8
    (pass (e.getLsbD 124) → poisoned = true → exec (.sfd o) s = .next (stop 0x911)) ∧
    (pass (e.getLsbD 124) → poisoned = false → s.issue = some k →
      ∃ w : FarWrite, exec (.sfd o) s = .next (writesQueued s k [.far w]) ∧
        w.kind = kind ∧ w.peer = (e.extractLsb' 79 12).toNat ∧ w.addr = target ∧ w.poisoned = false ∧
        w.bytes = (List.range 8).map (fun j => byteOf (s.rS (o.e.extractLsb' 0 6)) j)) ∧
    (¬pass (e.getLsbD 125) → exec (.lfd o) s = .next (stop (first (e.getLsbD 125)))) ∧
    (¬pass (e.getLsbD 124) → exec (.sfd o) s = .next (stop (first (e.getLsbD 124))))


/-! ## Control lane (spec/09) -/

/-- The transfers of Table 9.7: a taken brc, call, jmp, calli and ret leave the pick in progress with their target, calls
with the link; a brc that is not taken has no effect; a target whose bits 3:0 are not zero, or that lies at or past the end
of the picks, stops the pick with 0x201 (Table 24.2). A sequencer of a loom. The end tests of the pick run before its
transfer; a jump then pops entries until its target lies within the innermost remaining body or the stack is empty, and
call, calli and ret leave the stack; brkl pops the innermost entry, no end test of its body runs (R37), and those of the enclosing bodies
that end with the pick that it has left follow (R408). -/
def Obligations.TransfersLeaveForTheirTarget : Prop :=
  (∀ (s : State) (k : Issue) (r : LoomRun) (a : BitVec 6) (n : Bool) (off : BitVec 28),
    s.issue = some k → s.cur.stream = none → s.myRun = some r → r.pickBytes ≤ 262144 →
    let goes := fun (i : Instr) (t : Int) (pops link : Bool) =>
      (t % 16 = 0 ∧ 0 ≤ t ∧ t < r.pickBytes →
        exec i s = .next { s with issue := some { k with control := .jump t.toNat pops, link := link } }) ∧
      (¬(t % 16 = 0 ∧ 0 ≤ t ∧ t < r.pickBytes) → exec i s = .next (s.stopSlot 0x201 1 0#64))
    let near := (s.cur.pick : Int) + 16 * off.toInt
    let taken := decide (s.rS a ≠ 0#64) ≠ n
    (taken → goes (.brc a n off) near true false) ∧ (¬taken → exec (.brc a n off) s = .next s) ∧
    goes (.call off) near false true ∧ goes (.jmp a) (s.rS a).toNat true false ∧
    goes (.calli a) (s.rS a).toNat false true ∧ goes .ret (s.rS 62#6).toNat false false) ∧
  (∀ (s : State) (i : Issue) (target : Nat),
    let tests := endTests s.me.loops s.me.li i.pick (i.pick + i.bytes)
    let kept := popTo tests.2.1 target
    (i.control = .jump target true →
      (s.flow i).pc = target ∧ (s.flow i).loops = kept ∧ (s.flow i).link = tests.1 ∧
      (∃ gone, tests.2.1 = gone ++ kept ∧ ∀ e ∈ gone, ¬(e.first ≤ target ∧ target ≤ e.last)) ∧
      (∀ e rest, kept = e :: rest → e.first ≤ target ∧ target ≤ e.last)) ∧
    (i.control = .jump target false →
      (s.flow i).pc = target ∧ (s.flow i).loops = tests.2.1 ∧ (s.flow i).link = tests.1) ∧
    (∀ e rest, i.control = .leave → s.me.loops = e :: rest →
      let after := endTests rest s.me.li e.last (e.last + s.pickSize e.last)
      (s.flow i).pc = after.1 ∧ (s.flow i).loops = after.2.1 ∧ (s.flow i).li = after.2.2 ∧
      ((∀ x ∈ rest, x.last ≠ e.last) →
        (s.flow i).pc = e.last + s.pickSize e.last ∧ (s.flow i).loops = rest ∧ (s.flow i).li = s.me.li) ∧
      (∀ x more, rest = x :: more → x.last = e.last → 1 < x.left →
        (s.flow i).pc = x.first ∧ (s.flow i).loops = { x with left := x.left - 1 } :: more)))

/-- loop, loopq and rep push an entry with their count, body and depth, the iteration number starting at 0; a count of 0
pushes nothing and skips the body; a seventh push stops the pick with 0x203 (R35, R36, R38, R155). loopq pops its queue, and
on an empty one holds its pick while a fill is outstanding and else stops with 0x20B (R156, R157); brkl on an empty stack
stops with 0x204; cqpush appends, and a seventeenth entry stops with 0x20A. -/
def Obligations.LoopsPushTheirEntry : Prop :=
  ∀ (s : State) (k : Issue) (cnt : BitVec 10) (a : BitVec 6) (len : BitVec 8) (stride : BitVec 4) (cq : BitVec 2),
    s.issue = some k →
    let first := s.cur.pick + s.pickSize s.cur.pick
    let leaves := fun (t : State) (c : Transfer2) => ({ t with issue := some { k with control := c } } : State)
    let depth := s.me.loops.length
    let pushes := fun (i : Instr) (t : State) (count last : Nat) (rep : Bool) (stride : Nat) =>
      (count ≠ 0 → depth < 6 → exec i s = .next (leaves t (.loopEntry
        { left := count, first := first, last := last, depth := depth, rep := rep, stride := stride }))) ∧
      (count ≠ 0 → 6 ≤ depth → exec i s = .next (s.stopSlot 0x203 1 0#64))
    let body := s.picksOn first len.toNat
    let loops := fun (i : Instr) (count : Nat) =>
      pushes i s count body false 0 ∧ (count = 0 → exec i s = .next (leaves s (.skipBody body)))
    let repeats := fun (i : Instr) (count : Nat) =>
      pushes i s count first true stride.toNat ∧ (count = 0 → exec i s = .next (leaves s .skipPick))
    let queue := Tab.get (s.loom s.cur.loom).cq cq.toNat []
    let withQueue := fun (xs : List Word) => s.updLoom s.cur.loom (fun l => { l with cq := Tab.put l.cq cq.toNat xs })
    loops (.loop cnt len) cnt.toNat ∧ loops (.loopReg a len) ((s.rS a).toNat % 2 ^ 32) ∧
    repeats (.rep cnt stride) cnt.toNat ∧ repeats (.repReg a stride) ((s.rS a).toNat % 2 ^ 32) ∧
    (∀ c rest, s.cur.stream = none → queue = c :: rest →
      (c ≠ 0#32 → depth < 6 → exec (.loopq cq len) s = .next (leaves (withQueue rest) (.loopEntry
        { left := c.toNat, first := first, last := body, depth := depth, rep := false, stride := 0 }))) ∧
      (c ≠ 0#32 → 6 ≤ depth → exec (.loopq cq len) s = .next (s.stopSlot 0x203 1 0#64)) ∧
      (c = 0#32 → exec (.loopq cq len) s = .next (leaves (withQueue rest) (.skipBody body)))) ∧
    (queue = [] → (s.loom s.cur.loom).filling s.me.launch cq.toNat = true → exec (.loopq cq len) s = .next { s with issue := none }) ∧
    (queue = [] → (s.loom s.cur.loom).filling s.me.launch cq.toNat = false →
      exec (.loopq cq len) s = .next (s.stopSlot 0x20B 1 0#64)) ∧
    (s.me.loops ≠ [] → exec .brkl s = .next (leaves s .leave)) ∧
    (s.me.loops = [] → exec .brkl s = .next (s.stopSlot 0x204 1 0#64)) ∧
    (queue.length < 16 → exec (.cqpush cq a) s = .next (withQueue (queue ++ [(s.rS a).extractLsb' 0 32]))) ∧
    (16 ≤ queue.length → exec (.cqpush cq a) s = .next (s.stopSlot 0x20A 1 0#64))

/-- A loop of count c runs its body c times (R36): at the body's last pick the next pick is its first, with the iteration
number one more, until c iterations are done; the entry is then popped and the end tests of the enclosing bodies that end at
the same pick follow (R408). A pick that falls through at the last pick of a body leaves its sequencer where these tests say. -/
def Obligations.LoopRunsItsBodyCountTimes : Prop :=
  (∀ (e : LoopEntry) (rest : List LoopEntry) (li : Tab Word) (fall : Nat),
    1 ≤ e.left → e.left < 2 ^ 32 → Tab.get li e.depth 0#32 = 0#32 →
    let after := fun (k : Nat) => (List.range k).foldl (fun p _ => (endTests p.1 p.2 e.last fall).2) (e :: rest, li)
    (∀ k, k < e.left → (after k).1 = { e with left := e.left - k } :: rest ∧
      Tab.get (after k).2 e.depth 0#32 = BitVec.ofNat 32 k ∧
      (k + 1 < e.left → (endTests (after k).1 (after k).2 e.last fall).1 = e.first)) ∧
    endTests (after (e.left - 1)).1 (after (e.left - 1)).2 e.last fall = endTests rest (after (e.left - 1)).2 e.last fall) ∧
  (∀ (s : State) (i : Issue), i.control = .fallThrough →
    let t := endTests s.me.loops s.me.li i.pick (i.pick + i.bytes)
    (s.flow i).pc = t.1 ∧ (s.flow i).loops = t.2.1 ∧ (s.flow i).li = t.2.2 ∧
    (∀ e rest, s.me.loops = e :: rest → e.last = i.pick → 1 < e.left →
      (s.flow i).pc = e.first ∧ (s.flow i).loops = { e with left := e.left - 1 } :: rest))


/-- The other slots of cf that act on their own sequencer or start one (R160 to R165): dtwait clears its tokens when all are
set, the jq results that they bring landing at the next step, the last for a register in queue order (R239); it
waits while they are outstanding and stops with 0x607 when one never comes (R360); spawn starts a dormant sequencer of
the launch with the state of R17, its arguments s[base] upward; halt, trap and yield take effect when their pick has issued;
mark logs the drift and arms tracing when it passes the drift limit. The end of a pick whose slots have all issued: its writes
perform, it counts as a step unless resumed (R23, R299), the sequencer stands at the pick that its transfer, loop entry or end tests give, with
their loops and iteration numbers, a call's link lands in s62 one step later (R154), a yield holds no lane (R165), a wait begins
(R22), and after a halt the sequencer is dormant, its results in flight and its holds gone (R19, R162). A loop or rep of count 0 goes on
past its body, where the end tests of the enclosing bodies that end there follow (R408). That a loop or rep standing in
the last pick of an enclosing body runs no end test of that body there is the model's (log 51). -/
def Obligations.SequencerControlGivesItsEffect : Prop :=
  ∀ (s : State) (k : Issue) (r : LoomRun) (mask : BitVec 8) (q : BitVec 3) (base : BitVec 6) (count : BitVec 4)
    (entry : BitVec 22) (code : BitVec 8) (mstep : BitVec 34),
    s.issue = some k → s.cur.stream = none → s.myRun = some r →
    let t := (s.cur.pick : Int) + 16 * entry.toInt
    let good := t % 16 = 0 ∧ 0 ≤ t ∧ t < r.pickBytes
    let args := (List.range count.toNat).map (fun j => s.rS (base + BitVec.ofNat 6 j))
    let set := fun (j : Nat) => s.me.dtView.getLsbD j = true
    let named := fun (j : Nat) => j < 8 ∧ mask.getLsbD j = true
    let spawn := exec (.spawn q base count entry) s
    let due := s.me.results.filter (fun x => mask.getLsbD x.token)
    ((∀ j, named j → set j) → (∀ d, s.me.group.find? (fun g => g.dest == .s d) = none) → ∃ u ls,
      exec (.dtwait mask) s = .next u ∧ u.me.dt = s.me.dt &&& ~~~mask ∧
      u.me.results = s.me.results.filter (fun x => !mask.getLsbD x.token) ∧ u.me.flight = s.me.flight ++ ls ∧
      (∀ f ∈ ls, f.step = s.cur.step + 1 ∧ f.data = .yes ∧ ∃ x ∈ due, f.dest = .s x.dest) ∧
      ls.Pairwise (fun f h => f.dest ≠ h.dest) ∧
      (∀ pre x post, due = pre ++ x :: post → (∀ y ∈ post, y.dest ≠ x.dest) →
        ∃ f ∈ ls, f.dest = .s x.dest ∧ f.mask = BitVec.allOnes 1024 ∧ f.value.extractLsb' 0 64 = x.value) ∧
      memoryAsBefore s u ∧ u.issue = s.issue) ∧
    ((∃ j, named j ∧ ¬set j) → (∀ j, named j → ¬set j → s.outstanding j = true) →
      exec (.dtwait mask) s =
        .next { s.updMe (fun q => { q with status := .waiting (.tokens mask) }) with issue := none }) ∧
    ((∃ j, named j ∧ ¬set j ∧ s.outstanding j = false) → exec (.dtwait mask) s = .next (s.stopSlot 0x607 1 0#64)) ∧
    (good → ∀ rec, Tab.find? r.records q.toNat = some rec → (s.seq s.cur.loom q.toNat).status = .dormant →
      ∃ u, spawn = .next u ∧ u.seq s.cur.loom q.toNat =
        (Seq.activated s.me.launch (BitVec.ofInt 64 t) args rec (s.cycle + 1)).follows (s.seq s.cur.loom q.toNat) ∧
        memoryAsBefore s u) ∧
    (¬good → spawn = .next (s.stopSlot 0x201 1 0#64)) ∧
    (good → Tab.find? r.records q.toNat = none → spawn = .next (s.stopSlot 0x207 1 0#64)) ∧
    (good → Tab.find? r.records q.toNat ≠ none → (s.seq s.cur.loom q.toNat).status ≠ .dormant →
      spawn = .next (s.stopSlot 0x206 0 0#64)) ∧
    exec .halt s = .next { s with issue := some { k with halt := true } } ∧
    exec (.trap code) s = .next { s with issue := some { k with trapCode := some code.toNat } } ∧
    exec .yield s = .next { s with issue := some { k with yields := true } } ∧
    (let drift : Int := ((s.cycle - s.me.activeSince : Nat) : Int) - mstep.toNat
     let limit := ((s.loom s.cur.loom).debugOf r.tenancy).drift.toNat
     ∃ (u : State) (x : BitVec 128), exec (.mark mstep) s = .next u ∧ u.me.tracing = decide (limit < drift.natAbs) ∧
       (u.loom s.cur.loom).trace.getLast? = some x ∧ x.extractLsb' 124 4 = 1#4 ∧
       x.extractLsb' 121 3 = BitVec.ofNat 3 s.cur.seq ∧
       x.extractLsb' 64 32 = BitVec.ofInt 32 (min (max drift (-2147483648)) 2147483647) ∧
       x.extractLsb' 0 64 = BitVec.ofNat 64 s.cur.step ∧ memoryAsBefore s u) ∧
    (k.cut = none →
      let v := s.commitWrites.countStep
      let f := v.flow k
      let u := s.finishPick
      let ends := fun (last : Nat) => v.me.loops.any (fun e => decide (e.last = last))
      u.issue = none ∧ v.me.steps = s.commitWrites.me.steps + (if k.resumed then 0 else 1) ∧ u.me.steps = v.me.steps ∧
      (k.halt = true → k.trapCode = none →
        u.me.status = .dormant ∧ u.me.held = [] ∧ u.me.flight = [] ∧ u.me.loops = [] ∧ u.me.results = []) ∧
      (k.halt = false → u.me.pc = BitVec.ofNat 64 f.pc ∧ u.me.loops = f.loops ∧
        (∀ d, d < 6 → Tab.get u.me.li d 0#32 = Tab.get f.li d 0#32) ∧
        u.me.held = (if k.yields then [] else v.me.held) ∧
        (k.link = false → u.me.flight = v.me.flight) ∧
        (k.link = true → v.me.group = [] → ∃ x, u.me.flight = v.me.flight ++ [x] ∧ x.dest = .s 62 ∧ x.step = s.cur.step + 1 ∧
          x.data = .yes ∧ x.value.extractLsb' 0 64 = BitVec.ofNat 64 f.link) ∧
        (k.trapCode = none → k.after = none → u.me.status = v.me.status) ∧
        (k.trapCode = none → ∀ w, k.after = some w → u.me.status = .waiting w)) ∧
      (k.control = .fallThrough → ends k.pick = false → f.pc = k.pick + k.bytes ∧ f.loops = v.me.loops ∧ f.li = v.me.li) ∧
      (k.control = .fallThrough →
        let t := endTests v.me.loops v.me.li k.pick (k.pick + k.bytes)
        f.pc = t.1 ∧ f.loops = t.2.1 ∧ f.li = t.2.2) ∧
      (∀ e, k.control = .loopEntry e → f.pc = e.first ∧ f.loops = e :: v.me.loops ∧ Tab.get f.li e.depth 0#32 = 0#32) ∧
      (∀ last, k.control = .skipBody last ∨ (k.control = .skipPick ∧ last = k.pick + k.bytes) →
        let t := endTests v.me.loops v.me.li last (last + v.pickSize last)
        f.pc = t.1 ∧ f.loops = t.2.1 ∧ f.li = t.2.2 ∧
        (ends last = false → f.pc = last + v.pickSize last ∧ f.loops = v.me.loops) ∧
        (∀ x more, v.me.loops = x :: more → x.last = last → 1 < x.left →
          f.pc = x.first ∧ f.loops = { x with left := x.left - 1 } :: more)))

/-- taga returns the lowest-numbered tag that is neither live nor promised to another taga nor in a tret or tfold, from 1 up,
visible at the next step, and makes it live, where the launch holds fewer tags than its quota (R65, R66); until the allocator answers, its pick holds. With the quota held
the sequencer leaves the ready set, its request stalled in the allocator's order; one that stands there already waits on (R66). That the
allocator is asked while another cause freezes the pick is the model's (log 76), and so is which quota binds (log 75). With a quota of 0 it stops with 0x305, and with 0x306 where no tag can come (R381). tret and tfold of a live tag: it is live no more, yet not free, and the
sequencer leaves the ready set when its pick has issued; a tag that is 0 or not live for the launch stops the pick with 0x301
(R65, R68). tset puts s[A][11:0] into ct at the next step (Table 9.10). -/
def Obligations.TagSlotsGiveTheirEffect : Prop :=
  ∀ (s : State) (k : Issue) (a d : BitVec 6), s.issue = some k →
    let c := s.cur.loom / 16
    let al := s.allocator c s.myTenancy
    let id := s.me.launch
    let taken := fun (t : Nat) => (∃ x, Tab.find? al.live t = some x) ∨ (∃ x, Tab.find? al.promised t = some x) ∨
      ∃ o ∈ al.ops, o.tag = t
    let makesLive := fun (g : Nat) => s.updAllocator c s.myTenancy (fun a =>
      { a with live := Tab.put a.live g id, promised := Tab.drop a.promised g })
    let mine := fun (x : TagStall) => x.loom = s.cur.loom ∧ x.seq = s.cur.seq ∧ x.launch = id
    let answered := s.me.granted = none ∧ s.me.noTag = false ∧ ∀ at_, s.me.asked = some at_ → at_ ≤ s.cycle
    let ready := answered ∧ ∀ x ∈ al.stalled, ¬mine x
    let tag := ((s.rS a).extractLsb' 0 12).toNat
    let live := tag ≠ 0 ∧ Tab.find? al.live tag = some id
    let begins := fun (i : Instr) (fold : Bool) =>
      (live → ∃ (t : State) (o : TagOp), exec i s = .next t ∧ o.tag = tag ∧ o.fold = fold ∧ o.launch = id ∧
        (t.allocator c s.myTenancy).ops = al.ops ++ [o] ∧ Tab.find? (t.allocator c s.myTenancy).live tag = none ∧
        (∀ x, x ≠ tag → Tab.find? (t.allocator c s.myTenancy).live x = Tab.find? al.live x) ∧
        t.issue = some { k with after := some (.tagOp tag) } ∧ memoryAsBefore s t ∧ t.me = s.me) ∧
      (¬live → exec i s = .next (s.stopSlot 0x301 1 (operandOf 0 tag 0)))
    (ready → al.held id < s.myQuota → (∃ t, 1 ≤ t ∧ t ≤ 4095 ∧ ¬taken t) →
      ∃ g, 1 ≤ g ∧ g ≤ 4095 ∧ ¬taken g ∧ (∀ t, 1 ≤ t → t < g → taken t) ∧
        exec (.taga d) s = .next (((makesLive g).resultS d.toNat 1 (BitVec.ofNat 64 g)).updMe (fun q => { q with asked := none }))) ∧
    (∀ at_, s.myQuota ≠ 0 → s.me.granted = none → s.me.noTag = false → s.me.asked = some at_ → s.cycle < at_ →
      exec (.taga d) s = .next { s with issue := none }) ∧
    (s.myQuota = 0 → exec (.taga d) s = .next (s.stopSlot 0x305 1 0#64)) ∧
    (ready → s.myQuota ≠ 0 → s.myQuota ≤ al.held id → ∃ t, exec (.taga d) s = .next t ∧ t.issue = none ∧
      t.me.status = .waiting (.tag s.cycle) ∧ ∃ x ∈ (t.allocator c s.myTenancy).stalled, mine x ∧ x.since = s.cycle) ∧
    (answered → s.myQuota ≠ 0 → ∀ x, al.stalled.find? (fun y => decide (mine y)) = some x → ∃ t, exec (.taga d) s = .next t ∧
      t.issue = none ∧ t.me.status = .waiting (.tag x.since) ∧ (t.allocator c s.myTenancy).stalled = al.stalled) ∧
    (∀ g, s.myQuota ≠ 0 → s.me.granted = some g → exec (.taga d) s =
      .next (((makesLive g.toNat).resultS d.toNat 1 (g.zeroExtend 64)).updMe (fun q => { q with asked := none, granted := none }))) ∧
    (s.myQuota ≠ 0 → s.me.granted = none → s.me.noTag = true → exec (.taga d) s = .next (s.stopSlot 0x306 1 0#64)) ∧
    begins (.tret a) false ∧ begins (.tfold a) true ∧
    exec (.tset a) s = .next (s.result .ct 1 (BitVec.allOnes 1024) ((s.rS a).zeroExtend 1024))

/-- arrive and arrivew send their arrival, of 1 to 65,535, towards the object that the slot is bound to, arrivew then waiting
(R158); an arrival of 0 stops the pick with 0x208, an unbound slot with 0x209. wait returns at once with PH and code 0 when the
phase has passed, with code 1 when its timeout is 0, and else waits (R159); an error in the line of its object lands instead
(R316, R371). -/
def Obligations.BarrierSlotsArriveAndWait : Prop :=
  ∀ (s s0 : State) (k : Issue) (r : BarrierRef) (o : BarrierObj) (bar : BitVec 8) (n phase : BitVec 4) (a d : BitVec 6),
    s.issue = some k → s.binding bar.toNat = some r → s.barrierAt s.me.launch r = some o →
    let object := s.readObject s.me.launch s.myTenancy r
    let status := fun (code : BitVec 4) => (0#55 ++ (BitVec.ofBool o.er ++ o.ph) ++ code : DWord)
    let after := fun (w : Option Wait) => { k with after := w }
    let put := fun (t : State) (w : Wait) => ({ t with issue := some (after (some w)) } : State)
    let seen := s0.observe s.cur.loom s.me.launch r (BitVec.ofBool o.er ++ o.ph)
    let arrives := fun (i : Instr) (n : Nat) (waits : Option Nat) =>
      (n ≠ 0 → s.objectReadonly r = false → ∃ (t : State) (x : Arrival), exec i s = .next t ∧
        (t.loom s.cur.loom).arriving = (s.loom s.cur.loom).arriving ++ [x] ∧ x.object = r ∧ x.n = n ∧ x.seq = s.cur.seq ∧
        x.waits = waits ∧ memoryAsBefore s t ∧
        t.issue = some (after (match waits with
          | some d => some (.barrier r d none false)
          | none => k.after))) ∧
      (n = 0 → exec i s = .next (s.stopSlot 0x208 1 0#64)) ∧
      (n ≠ 0 → s.objectReadonly r = true → exec i s = .next (s.stopSlot 0x213 0 (operandOf r.seg 0 r.off)))
    arrives (.arrive bar n) n.toNat none ∧ arrives (.arriveReg bar a) ((s.rS a).toNat % 2 ^ 16) none ∧
    arrives (.arrivew bar n d) n.toNat (some d.toNat) ∧ arrives (.arrivewReg bar a d) ((s.rS a).toNat % 2 ^ 16) (some d.toNat) ∧
    (∀ e, object = (some e, s0) → exec (.wait bar phase d a) s = .next (s0.resultFailed (.s d.toNat) 1 e)) ∧
    (object = (none, s0) → o.ph ≠ phase → exec (.wait bar phase d a) s = .next (seen.resultS d.toNat 1 (status 0#4))) ∧
    (object = (none, s0) → o.ph = phase → a ≠ 0#6 → s.rS a = 0#64 → exec (.wait bar phase d a) s = .next (seen.resultS d.toNat 1 (status 1#4))) ∧
    (object = (none, s0) → o.ph = phase → (a = 0#6 ∨ s.rS a ≠ 0#64) → exec (.wait bar phase d a) s = .next (put seen
      (.barrier r d.toNat (if a = 0#6 then none else some (s.cycle + (s.rS a).toNat)) true))) ∧
    (∀ u : State, u.binding bar.toNat = none → n ≠ 0#4 →
      exec (.arrive bar n) u = .next (u.stopSlot 0x209 1 0#64) ∧ exec (.wait bar phase d a) u = .next (u.stopSlot 0x209 1 0#64))

/-- The stream's slots (R166, R280, R281): launch begins the reading of its block; waitw reads the word at its descriptor and returns
it when it differs from s[B], and else waits for it to; an error that the read meets lands instead (log 59), and none does at a
target in tier-2 memory whose lines are sound and of the window's key. signal performs every earlier write of the device's
far-write queues, which are empty after it, and then
writes s[B] at its descriptor, to the host at once and in order, its Relaxed Ordering clear; that it performs them when it goes out
is the model's (log 10). While a launch before the oldest word that waits has still to
read its block, arguments or copies, the words wait in order. A descriptor that its window refuses stops the pick with
OUTC 0. -/
def Obligations.StreamSlotsGiveTheirEffect : Prop :=
  ∀ (s s1 : State) (k : Issue) (a b : BitVec 6), s.issue = some k →
    let d := s.rS a
    let t := s.myTenancy
    let read := s.streamRead t d 8
    let e := s.window t (farWindow d)
    let fault := fun (size : Nat) (write : Bool) => s.windowFault t d size 1 write
    let word := BitVec.ofNat 64 (leNat (s.streamBytes t d 8))
    let first := ((s.tenancy t).signals.head?.map (·.1)).getD s.nextLaunch
    let stops := fun (i : Instr) (size : Nat) (write : Bool) => ∀ code, fault size write = some code →
      exec i s = .next (s.stopSlot code 0 (operandOf (farWindow d) 0 (farOffset d)))
    (fault 64 false = none → ∃ (u : State) (x : Launch) (ends : Nat), exec (.launch a b) s = .next u ∧
      Tab.find? u.launches s.nextLaunch = some x ∧ x.tenancy = t ∧ x.block = d ∧ x.token = (s.rS b).toNat % 8 ∧
      x.phase = .reading 1 ends ∧ s.cycle < ends ∧ u.nextLaunch = s.nextLaunch + 1 ∧ memoryAsBefore s u ∧ u.me = s.me) ∧
    (fault 8 false = none → read = (none, s1) → word ≠ s.rS b → exec (.waitw a b) s = .next (s1.resultS b.toNat 1 word)) ∧
    (fault 8 false = none → read = (none, s1) → word = s.rS b → exec (.waitw a b) s =
      .next ({ s1 with issue := some { k with after := some (.watch d (s.rS b) b.toNat) } })) ∧
    (∀ code, fault 8 false = none → read = (some code, s1) → exec (.waitw a b) s = .next (s1.resultFailed (.s b.toNat) 1
      { code := code, operand := operandOf (farWindow d) 0 (farOffset d) })) ∧
    (let line := winTarget e (farOffset d) / 64
     t < 64 → winKind e = 1 → farOffset d % 8 = 0 → s.unreachable 1 (64 * line) = false → (∀ x ∈ s.tier2Ecc, x.1 ≠ line) →
      Tab.get s.farQueues 4 [] = [] → line ∉ s.tier2Poison →
      (∀ key, Tab.find? s.lineKeys (4096 * 2 ^ 64 + line) = some key → key = Tab.get s.keys (winKey e) 0#512) →
      read = (none, s)) ∧
    (fault 8 true = none → ∃ u : State, exec (.signal a b) s = .next u) ∧
    (fault 8 true = none → s.readsAhead t first = true → ∃ (u : State) (w : FarWrite), exec (.signal a b) s = .next u ∧
      (u.tenancy t).signals = (s.tenancy t).signals ++ [(s.nextLaunch, w)] ∧ w.kind = winKind e ∧
      w.addr = winTarget e (farOffset d) ∧ w.bytes = (List.range 8).map (fun j => byteOf (s.rS b) j) ∧ w.relaxed = false ∧
      memoryAsBefore s u) ∧
    (fault 8 true = none → (s.tenancy t).signals = [] → s.readsAhead t s.nextLaunch = false →
      let queue := fun (x : Nat) => Tab.get s.farQueues x []
      let later := fun (x : Nat) => (List.range 5).flatMap (fun y => if x < y then queue y else [])
      let queued := winKind e ≠ 3 ∨ s.linkDown = true
      ∃ (u : State) (w : FarWrite), exec (.signal a b) s = .next u ∧ (u.tenancy t).signals = [] ∧ w.kind = winKind e ∧
      w.addr = winTarget e (farOffset d) ∧ w.bytes = (List.range 8).map (fun j => byteOf (s.rS b) j) ∧ w.relaxed = false ∧
      (∀ x, x < 5 → (Tab.get u.farQueues x [] = if queued ∧ x = s.cur.loom / 320 then [w] else []) ∧
        writesLand s u (queue x) (later x ++ [w])) ∧
      (¬queued → (∀ j, j < 8 → hostByte u (winTarget e (farOffset d) + j) = byteOf (s.rS b) j) ∧
        u.hostWrites.head? = some (winTarget e (farOffset d), false))) ∧
    stops (.launch a b) 64 false ∧ stops (.waitw a b) 8 false ∧ stops (.signal a b) 8 true

/-! ## Exceptions: stops, records and the end of a launch (spec/22) -/

/-- A precise stop (R314): the writes of the lanes that issued perform, nothing else of the pick issues, the partial issue
counts as one step, the sequencer stops with the done mask of those lanes, and a record with STOP 0 is due for the tenancy's
store when the cycle ends, naming the pick, the step, the lane and OPERAND. Every register keeps its value. With OUTC 0 the
launch goes on; with OUTC 1 it ends (R319). That the record is written, and the launch ends, when the cycle ends is the model's (log 48). A sequencer of a loom. -/
def Obligations.PreciseStopKeepsThePickRestartable : Prop :=
  ∀ (s : State) (k : Issue) (code : Nat) (operand : DWord), s.issue = some k → s.cur.stream = none →
    let t := s.stopSlot code 0 operand
    let lane := s.cur.lane.index
    let v := s.commitWrites
    t.issue = none ∧
    t.me.status = .stopped ⟨code, k.done, lane, 16, s.cur.pick, s.cur.step, true, k.zadd, k.vaultBank, s.boundHere, s.keptHere, false⟩ ∧
    t.me.steps = v.me.steps + (if k.resumed then 0 else 1) ∧ (∀ r, t.me.rdS r = v.me.rdS r) ∧
    (∀ r, t.me.rdV r = v.me.rdV r) ∧ (∀ r, t.me.rdQ r = v.me.rdQ r) ∧ t.me.pc = v.me.pc ∧ t.me.loops = v.me.loops ∧
    t.me.held = v.me.held ∧ t.me.flight = v.me.flight ∧ memoryAsBefore v t ∧
    t.detected = v.detected ++ [(s.myTenancy,
      { word0 := recordWord0 0 0 k.done code, word1 := recordWord1 s.cur.loom s.myTenancy s.cur.seq lane,
        pick := BitVec.ofNat 64 s.cur.pick, step := BitVec.ofNat 64 s.cur.step, operand := operand,
        launch := some s.me.launch, command := none })] ∧
    t.ends = v.ends ∧ s.me.launch ∈ (s.stopSlot code 1 operand).ends

/-- A trap's pick issues whole: the sequencer stops before its next pick, the one to which the pick has left it, its done mask the
lanes of the pick, and a resume goes on there (R163, R320, R317). R320's record has STOP 0, OUTC 0, the lane cf, DONE the lanes of the pick
and OPERAND 0; it is due for the store when the cycle ends (log 48). -/
def Obligations.TrapStopsAfterItsPick : Prop :=
  ∀ (s : State) (k : Issue) (code : Nat), s.issue = some k → k.cut = none → k.trapCode = some code → s.cur.stream = none →
    k.halt = false →
    let t := s.finishPick
    let v := s.commitWrites.countStep
    t.issue = none ∧ t.me.pc = BitVec.ofNat 64 (v.flow k).pc ∧ t.me.loops = (v.flow k).loops ∧
    (k.after = none → memoryAsBefore v t ∧ t.detected = v.detected ++ [(s.myTenancy,
      { word0 := recordWord0 0 0 k.present code, word1 := recordWord1 s.cur.loom s.myTenancy s.cur.seq 13,
        pick := BitVec.ofNat 64 s.cur.pick, step := BitVec.ofNat 64 s.cur.step, operand := 0#64,
        launch := some s.me.launch, command := none })] ∧ t.ends = v.ends) ∧
    t.me.status = .stopped ⟨code, k.present, 13, 16, s.cur.pick, s.cur.step, true, none, none, [], [], true⟩ ∧
    (t.me.resume t.cycle).status = .ready ∧ (t.me.resume t.cycle).resuming = none ∧
    (t.me.resume t.cycle).eligibleFrom = t.cycle + 1 ∧ (t.me.resume t.cycle).pc = t.me.pc

/-- A tenancy's fault store is circular: a record goes to entry FLTWR, FLTWR and the count of unread records advance and
MSI-X vector 1 is sent; with 64 unread records it is lost, and the count of lost records saturates at 65,535 (R312, R313).
The records of one cycle come
in the order of loom and agent (R313); that they are written when the cycle ends is the model's (log 48). WORD0 holds STOP, OUTC, DONE and CODE, WORD1 LOOM, TENANCY, AGENT and LANE, each at its bits (Table 22.3). -/
def Obligations.FaultStoreTakesItsRecords : Prop :=
  ∀ (t : Tenancy) (r : FaultRecord) (stop outc code loom ten agent lane : Nat) (done : BitVec 14),
    (t.fltCount < 64 → Tab.find? (t.record r).faults t.fltWr = some r ∧ (t.record r).fltWr = (t.fltWr + 1) % 64 ∧
      (t.record r).fltCount = t.fltCount + 1 ∧ (t.record r).msix = t.msix + 1 ∧ (t.record r).fltLost = t.fltLost ∧
      ∀ k, k ≠ t.fltWr → Tab.find? (t.record r).faults k = Tab.find? t.faults k) ∧
    (64 ≤ t.fltCount → t.record r = { t with fltLost := min (t.fltLost + 1) 65535 }) ∧
    (recordWord0 stop outc done code).extractLsb' 30 2 = BitVec.ofNat 2 stop ∧
    (recordWord0 stop outc done code).extractLsb' 28 2 = BitVec.ofNat 2 outc ∧
    (recordWord0 stop outc done code).extractLsb' 26 2 = 0#2 ∧ (recordWord0 stop outc done code).extractLsb' 12 14 = done ∧
    (recordWord0 stop outc done code).extractLsb' 0 12 = BitVec.ofNat 12 code ∧
    (recordWord1 loom ten agent lane).extractLsb' 21 11 = BitVec.ofNat 11 loom ∧
    (recordWord1 loom ten agent lane).extractLsb' 15 6 = BitVec.ofNat 6 ten ∧
    (recordWord1 loom ten agent lane).extractLsb' 11 4 = BitVec.ofNat 4 agent ∧
    (recordWord1 loom ten agent lane).extractLsb' 7 4 = BitVec.ofNat 4 lane ∧
    (recordWord1 loom ten agent lane).extractLsb' 0 7 = 0#7 ∧
    (∀ (s : State) (n : Nat), (s.record n r).detected = s.detected ++ [(n, r)] ∧ memoryAsBefore s (s.record n r) ∧
      (s.detected = [(n, r)] → s.writeRecords = ({ s with detected := [] } : State).updTenancy n (fun x => x.record r))) ∧
    (∀ (s : State) (a b : Nat × FaultRecord),
      let put := fun (s : State) (p : Nat × FaultRecord) => s.updTenancy p.1 (fun x => x.record p.2)
      let clear := ({ s with detected := [] } : State)
      let loomOf := fun (p : Nat × FaultRecord) => (p.2.word1.extractLsb' 21 11).toNat
      let agentOf := fun (p : Nat × FaultRecord) => (p.2.word1.extractLsb' 11 4).toNat
      let place := fun (p : Nat × FaultRecord) => if agentOf p = 14 then 16 else agentOf p
      s.detected = [a, b] → s.writeRecords =
        (if loomOf a < loomOf b ∨ (loomOf a = loomOf b ∧ place a ≤ place b) then put (put clear a) b else put (put clear b) a))

/-- When a launch ends with a fault (R319), every loom of it lets it go, after what
else befalls its agents in the cycle of its record (R325), which the model takes as the end of that cycle (log 48): its sequencers are dormant, no command or
message of it waits, its tags are free in every cluster; a loom whose engine is in a chunk of it lets it go with that
chunk. Its phase says that it is ending, faulted. -/
def Obligations.EndedLaunchLeavesItsLooms : Prop :=
  ∀ (s : State) (id : Nat) (x : Launch), Tab.find? s.launches id = some x → x.phase ≠ .ended →
    let t := s.endLaunchNow id
    (∀ l, (s.loom l).run id ≠ none →
      (∀ q, (t.seq l q).launch = id → (t.seq l q).status = .dormant) ∧
      (∀ c ∈ (t.loom l).queues.of id, c.chunk.isSome = true ∧ c.done = true ∧ c.token = none) ∧
      (∀ m ∈ (t.loom l).landing, m.launch ≠ id) ∧ (∀ w ∈ (t.loom l).waiters, w.launch ≠ id) ∧
      ((∀ c ∈ (s.loom l).queues.of id, c.chunk = none) → (t.loom l).run id = none)) ∧
    (∀ c u tag, Tab.find? (t.allocator c u).live tag ≠ some id) ∧
    (∃ y, Tab.find? t.launches id = some y ∧ y.phase = .ending ∧ y.faulted = true) ∧
    (∀ a, tier2Byte t a = tier2Byte s a) ∧ (∀ a, hostByte t a = hostByte s a) ∧
    s.endLaunch id = { s with ends := if s.ends.contains id then s.ends else s.ends ++ [id] } ∧
    (s.ends = [id] → s.endLaunches = ({ s with ends := [] } : State).endLaunchNow id)


/-! ## Engines (spec/12 to spec/15) -/

/-- The product and tile commands of mx (R211, R214 to R219, R354): a slot that passes its checks enters its command with the
registers, the shape and the window state that it read at issue. A product of a pick with no zld or zset of its tile; mmaz
and the tile commands hold their pick while a command names the tile (R218). mshape and mwin set their state from the next
step on, or stop with 0x602 where Table 25.1 says so; that mshape accepts N - 1 or M - 1 above 127, which Table 12.1 limits, is the
model's (log 72). -/
def Obligations.MatrixSlotsEnterTheirCommand : Prop :=
  ∀ (s : State) (o : MxOps),
    let wm := o.eng.wm
    let a := s.rS o.ra
    let b := s.rS o.rb
    let free := s.tileBusyNow o.ac.toNat = false
    let shape := s.me.shape
    let window := s.me.window
    let rows := (b.extractLsb' 32 16).toNat
    let bytes := (b.extractLsb' 0 32).toNat
    let size := if o.fa = 0#3 ∨ o.fa = 5#3 then 4 else if o.fa = 1#3 ∨ o.fa = 2#3 then 2 else 1
    let chunk := ((s.chunkOf s.cur.loom s.me.launch).extractLsb' 0 13).toNat
    let moved := if rows = 0 ∨ 128 < rows ∨ bytes % size ≠ 0 ∨ 128 * size < bytes then some 0x602
      else if chunk < bytes then some 0x603 else if s.badSegDesc a 0 = true then some 0x604 else none
    let mine := fun (m : Mnemonic) (args : List DWord) (c : Cmd) => c.op = m ∧ c.args = args ∧ c.ac = o.ac.toNat ∧
      c.fa = o.fa.toNat ∧ tokenNamed o.tk c.token ∧ c.aq = o.eng.aq ∧ c.rl = o.eng.rl ∧ c.scaled = none
    let product := fun (m : Mnemonic) (args : List DWord) (c : Cmd) =>
      mine m args c ∧ c.fb = o.fb.toNat ∧ c.shape = shape ∧ c.window = window
    let input := window.extractLsb' 256 64
    let tokens := ∀ k, k < 8 → wm.getLsbD k = true → s.me.dtView.getLsbD k = true
    (s.scaledPick o.ac.toNat = false →
      engineSlot s (.mma o) .matrix wm (s.productFault .mma o) (product .mma [a, b]) ∧
      engineSlot s (.mmag o) .matrix wm (s.productFault .mmag o) (product .mmag [a, b, s.rS (o.ra + 1#6)]) ∧
      engineSlot s (.mmaw o) .matrix wm (s.productFault .mmaw o) (product .mmaw [input, b]) ∧
      (free → engineSlot s (.mmaz o) .matrix wm (s.productFault .mmaz o) (product .mmaz [a, b]))) ∧
    (free → engineSlot s (.mzero o) .matrix wm none (mine .mzero []) ∧
      engineSlot s (.mdrain o) .matrix wm moved (mine .mdrain [a, b]) ∧
      engineSlot s (.mload o) .matrix wm moved (mine .mload [a, b])) ∧
    (¬free → s.neverSet wm = false → tokens →
      ∀ i ∈ [Instr.mmaz o, .mzero o, .mdrain o, .mload o], exec i s = .next { s with issue := none }) ∧
    (¬free → s.neverSet wm = false → ¬tokens →
      ∀ i ∈ [Instr.mmaz o, .mzero o, .mdrain o, .mload o], exec i s = .next (s.waitFor (.tokens wm))) ∧
    (let bad := a.extractLsb' 28 36 ≠ 0#36 ∨ 2047 < (a.extractLsb' 16 12).toNat ∨ b.extractLsb' 0 3 ≠ 0#3 ∨
       b.extractLsb' 32 3 ≠ 0#3
     tokens → (¬bad → exec (.mshape o) s =
         .next ((s.clearTokens wm).result .shape 1 (BitVec.allOnes 1024) ((a ++ b).zeroExtend 1024))) ∧
       (bad → exec (.mshape o) s = .next (s.stopSlot 0x602 1 0#64))) ∧
    (let level := fun (k : Nat) => s.rS (o.rb + BitVec.ofNat 6 k)
     let bad := ∃ k, k < 4 ∧ ((level k).extractLsb' 32 16 = 0#16 ∨ (level k).extractLsb' 48 16 ≠ 0#16)
     tokens → (¬bad → s.badSegDesc a 0 = false → exec (.mwin o) s = .next ((s.clearTokens wm).result .window 1
         (BitVec.allOnes 1024) ((a ++ level 0 ++ level 1 ++ level 2 ++ level 3).zeroExtend 1024))) ∧
       (¬bad → s.badSegDesc a 0 = true → exec (.mwin o) s = .next (s.stopSlot 0x604 1 0#64)) ∧
       (bad → exec (.mwin o) s = .next (s.stopSlot 0x602 1 0#64)))

/-- A pair of matrix formats is the product's only where Table 1.2 lists it, and a command whose unit or slice exceeds the
limits of sys.chunk, its unit 32 block rows of each operand or as many as the shape has (of an mmag 32, log 43), does not enter its queue; nor
does an mmaw whose levels do not fold to its shape, c0 * c1 being K/32 and c2 * c3 M (R220): 0x601, 0x602 and 0x603 come in that order,
before a bad descriptor's 0x604 (R11, R217, Table 25.1). -/
def Obligations.ProductChecksFollowTheirTable : Prop :=
  ∀ (s : State) (m : Mnemonic) (o : MxOps), m ∈ [Mnemonic.mma, .mmaz, .mmag, .mmaw] →
    let fa := o.fa.toNat
    let fb := o.fb.toNat
    let listed := fa = fb ∨ (fa = 3 ∧ fb = 1) ∨ (fa = 1 ∧ fb = 3)
    let bits := fun (f : Nat) => [4, 4, 6, 8, 8, 8, 16, 16].getD f 0
    let steps := if fa ≠ fb ∨ fa = 2 ∨ fa = 4 ∨ fa = 5 then 16 else if fa < 2 then 8 else 32
    let chunk := s.chunkOf s.cur.loom s.me.launch
    let rows := if m = .mmag then 32 else Nat.min 32 ((s.me.shape.extractLsb' 64 8).toNat + 1)
    let cols := Nat.min 32 ((s.me.shape.extractLsb' 72 8).toNat + 1)
    let large := (chunk.extractLsb' 0 13).toNat < rows * (4 * bits fa) + cols * (4 * bits fb) ∨ (chunk.extractLsb' 16 13).toNat < steps
    let count := fun (k : Nat) => (s.me.window.extractLsb' (224 - 64 * k) 16).toNat
    let folded := count 0 * count 1 = (s.me.shape.extractLsb' 80 12).toNat + 1 ∧
      count 2 * count 3 = (s.me.shape.extractLsb' 64 8).toNat + 1
    let bad := (m ≠ .mmaw ∧ s.badSegDesc (s.rS o.ra) 0 = true) ∨ s.badSegDesc (s.rS o.rb) 0 = true ∨
      (m = .mmag ∧ s.badSegDesc (s.rS (o.ra + 1#6)) 0 = true)
    s.productFault m o = (if ¬listed then some 0x601 else if m = .mmaw ∧ ¬folded then some 0x602 else if large then some 0x603 else if bad then some 0x604 else none)

/-- The scale lane (R222, R223, R358): zld reads the scale bytes of M rows and N columns and puts them on their way to the
entry that z names, visible from step n + 4, and z flips; zset puts a constant into both entries and leaves z; zadd marks its
pick's arrivals of the tile. A product whose pick holds a zld or zset of its tile is scaled: it enters only an idle engine,
and its schedule starts at this step with z at 0, as do a scaled mmag, mmaw, and mmaz of a tile that no command names. That a zld reads a
descriptor with K = 1 or per-use bits set as a segment descriptor is the model's (log 55), and so is that its step n + 4 counts over the
sequencer's activations (log 77). -/
def Obligations.ScaleSlotsPutTheirEntries : Prop :=
  ∀ (s s1 : State) (k : Issue) (o : ZsOps) (x : MxOps), s.issue = some k →
    let l := s.cur.loom
    let a := s.rS o.ra
    let b := s.rS o.rb
    let shape := s.me.shape
    let m := (shape.extractLsb' 64 8).toNat + 1
    let n := (shape.extractLsb' 72 8).toNat + 1
    let reach := fun (d : DWord) (count : Nat) => Reach.seg (ownerOf l d) (descSeg d) s.rTag
      ((List.range count).map (fun j => descOff d + j)) 1 1 false
    let z := (s.loom l).scaleZ.getLsbD o.ac.toNat
    let fault := fun (r : Reach) => s.reachFault l s.me.launch s.myTenancy r
    let cells := fun (d : DWord) (count : Nat) => s.cellsAt (ownerOf l d) s.me.launch (descSeg d) s.rTag (descOff d) count
    let loads := fun (t : State) (xs : List ScaleLoad) => (t.loom l).scaleLoads = (s.loom l).scaleLoads ++ xs
    let entry := fun (e : Nat) (rows cols : List Byte) (c : Option (BitVec 9)) =>
      ({ seq := s.cur.seq, visible := s.me.past + s.cur.step + 4, tile := o.ac.toNat, entry := e, rows := rows, cols := cols,
         constant := c } : ScaleLoad)
    (fault (reach a m) = none → fault (reach b n) = none →
      s.reachReads l s.me.launch s.myTenancy false [reach a m, reach b n] = (none, s1) →
      ∃ t, exec (.zld o) s = .next t ∧ loads t [entry (if z then 1 else 0) (cells a m) (cells b n) none] ∧
        (t.loom l).scaleZ.getLsbD o.ac.toNat = !z ∧
        (∀ j, j < 8 → j ≠ o.ac.toNat → (t.loom l).scaleZ.getLsbD j = (s.loom l).scaleZ.getLsbD j) ∧ memoryAsBefore s t) ∧
    (∀ f, fault (reach a m) = some f → exec (.zld o) s = .next (s.stopSlot f.1 f.2.1 f.2.2)) ∧
    (let c := some (a.extractLsb' 0 9)
     ∃ t, exec (.zset o) s = .next t ∧ loads t [entry 0 [] [] c, entry 1 [] [] c] ∧
       (t.loom l).scaleZ = (s.loom l).scaleZ ∧ memoryAsBefore s t) ∧
    exec (.zadd o) s = .next { s with issue := some { k with zadd := some o.ac.toNat } } ∧
    (∀ (i : Instr) (m : Mnemonic), (i, m) ∈ [(Instr.mma x, Mnemonic.mma), (.mmaz x, .mmaz), (.mmag x, .mmag), (.mmaw x, .mmaw)] →
      (m = .mmaz → s.tileBusyNow x.ac.toNat = false) → s.scaledPick x.ac.toNat = true → s.productFault m x = none →
      (∀ j, j < 8 → x.eng.wm.getLsbD j = true → s.me.dtView.getLsbD j = true) →
      ((s.loom l).queues.matrix = [] → ∃ (t : State) (c : Cmd) (sc : Scaled), exec i s = .next t ∧
        (t.loom l).cmds .matrix = [c] ∧ c.op = m ∧ c.scaled = some sc ∧ sc.first = s.cur.step ∧ sc.delivered = 0 ∧ sc.orphaned = false ∧
        sc.perSlice = sliceSteps x.fa.toNat x.fb.toNat ∧ (t.loom l).scaleZ.getLsbD x.ac.toNat = false) ∧
      ((s.loom l).queues.matrix ≠ [] → exec i s = .next { s with issue := none }))

/-- The Shuttle's commands (R225 to R231, R354, R355): a slot that passes its checks enters its command with s[RD], s[RS], s[RN] and,
where it reads it, s[RN + 1]; a copy, mcast, reduce, post, fill, gthr, sctr, vxfer or copyb of no rows or no bytes has nothing
left to do. The checks are those of Table 25.1 in its order: 0x602 for a vxfer that is not of 128 bytes throughout and for a reduce of
broken elements, 0x603 for a post of more than one row or chunk, 0x604 for a descriptor, mask or handler that does not belong in its
place (Table 12.7), 0x605 for a group word that is refused or not the loom's (R228). -/
def Obligations.ShuttleSlotsEnterTheirCommand : Prop :=
  ∀ (s : State) (o : ShOps),
    (∀ (m : Mnemonic) (rd rs rn rn1 : DWord),
      m ∈ [Mnemonic.copy, .mcast, .reduce, .post, .recall, .pushout, .fill, .gthr, .sctr, .vxfer, .copyb] →
      let rows := (rn.extractLsb' 32 16).toNat
      let bytes := (rn.extractLsb' 0 32).toNat
      let pitch := if rn.extractLsb' 48 16 = 0#16 then bytes else 64 * (rn.extractLsb' 48 16).toNat
      let size := if rn1.extractLsb' 0 2 = 1#2 then 2 else 4
      let isFar := fun (d : DWord) => d.getLsbD 63 = true
      let segment := fun (d : DWord) => s.badSegDesc d 0 = false
      let any := fun (d : DWord) => isFar d ∨ segment d
      let inLaunch := fun (j : Nat) => s.launchLoom s.me.launch (16 * (s.cur.loom / 16) + j) = true
      let dest := if m ∈ [Mnemonic.copy, .copyb, .fill] then any rd
        else if m = .mcast then s.cur.stream = none ∧ ¬isFar rd ∧ rd.extractLsb' 32 11 = 0#11
        else if m = .vxfer then ¬isFar rd ∧ segment (rd &&& ~~~0x100000000#64) else segment rd
      let source := if m ∈ [Mnemonic.copy, .copyb, .gthr, .sctr] then any rs
        else if m ∈ [Mnemonic.mcast, .reduce, .post] then segment rs else True
      let handler := (rn1.extractLsb' 0 18).toNat
      let third := if m ∈ [Mnemonic.gthr, .sctr, .copyb] then segment rn1
        else if m = .mcast then rn1.extractLsb' 16 48 = 0#48 ∧ ∀ j, j < 16 → rn1.getLsbD j = true → inLaunch j
        else if m = .post then handler % 16 = 0 ∧ ∃ r, s.myRun = some r ∧ handler < r.pickBytes else True
      let groupSize := (rn1.extractLsb' 16 16).toNat
      let groupRank := (rn1.extractLsb' 32 16).toNat
      let group := groupRank < groupSize ∧ rn1.extractLsb' 2 14 = 0#14 ∧
        Tab.find? (s.tenancy s.myTenancy).groups ((rn1.extractLsb' 48 16).toNat * 65536 + groupRank) =
          some (s.deviceNumber.toNat, s.cur.loom)
      let first := fun (code : Option Nat) => s.shuttleFault m rd rs rn rn1 = code
      let shaped := (m = .vxfer → bytes % 128 = 0 ∧ pitch % 128 = 0 ∧ (rs.extractLsb' 0 21).toNat % 128 = 0) ∧
        (m = .reduce → bytes % size = 0)
      let fits := m = .post → rows = 1 ∧ bytes ≤ ((s.chunkOf s.cur.loom s.me.launch).extractLsb' 0 13).toNat
      let placed := dest ∧ source ∧ third
      (¬shaped → first (some 0x602)) ∧ (shaped → ¬fits → first (some 0x603)) ∧ (shaped → fits → ¬placed → first (some 0x604)) ∧
      (shaped → fits → placed → m = .reduce → ¬group → first (some 0x605)) ∧
      (shaped → fits → placed → (m = .reduce → group) → first none)) ∧
    let empty := (s.rS o.rn).extractLsb' 32 16 = 0#16 ∨ (s.rS o.rn).extractLsb' 0 32 = 0#32
    let gives := fun (i : Instr) (m : Mnemonic) (two moves : Bool) =>
      let fourth := if two then s.rS (o.rn + 1#6) else 0#64
      engineSlot s i .shuttle o.eng.wm (s.shuttleFault m (s.rS o.rd) (s.rS o.rs) (s.rS o.rn) fourth) (fun c =>
        c.op = m ∧ c.args = [s.rS o.rd, s.rS o.rs, s.rS o.rn, fourth] ∧ c.scope = o.sc.toNat ∧ tokenNamed o.tk c.token ∧
        c.aq = o.eng.aq ∧ c.rl = o.eng.rl ∧ (c.done = true ↔ moves = true ∧ empty))
    gives (.copy o) .copy false true ∧ gives (.mcast o) .mcast true true ∧ gives (.reduce o) .reduce true true ∧
    gives (.post o) .post true true ∧ gives (.recallSeg o) .recall false false ∧ gives (.pushout o) .pushout false false ∧
    gives (.fill o) .fill false true ∧ gives (.gthr o) .gthr true true ∧ gives (.sctr o) .sctr true true ∧
    gives (.vxfer o) .vxfer false true ∧ gives (.copyb o) .copyb true true

/-- The Jacquard's commands and the count-queue fill (R233, R156, R354): a jq slot enters its command with the registers it
reads at issue, its function field and its destination, and always sets a token; its limits are checked when it begins. A
cqfill enters the fill, or is frozen while that holds 16 commands. -/
def Obligations.JacquardSlotsEnterTheirCommand : Prop :=
  ∀ (s : State) (o : JqOps) (q : BitVec 2) (seg : BitVec 12) (a : BitVec 6) (cnt : BitVec 5),
    let gives := fun (i : Instr) (m : Mnemonic) (args : List DWord) =>
      engineSlot s i .jacquard o.eng.wm none (fun c => c.op = m ∧ c.args = args ∧ c.fn = o.fn.toNat ∧ c.dest = o.d.toNat ∧
        c.token = some o.tk.toNat ∧ c.aq = o.eng.aq ∧ c.rl = o.eng.rl ∧ c.done = false)
    let three := [s.rS o.a, s.rS o.b, s.rS o.d]
    gives (.jcfg o) .jcfg [s.rS o.a, s.rS (o.a + 1#6), s.rS (o.a + 2#6), s.rS (o.a + 3#6), s.rS (o.a + 4#6), s.rS o.b,
      s.rS (o.b + 1#6)] ∧
    gives (.jord o) .jord three ∧ gives (.jvar o) .jvar three ∧ gives (.jmk o) .jmk three ∧ gives (.japp o) .japp three ∧
    gives (.jite o) .jite three ∧ gives (.jres o) .jres three ∧ gives (.jexq o) .jexq three ∧ gives (.jcnt o) .jcnt three ∧
    gives (.jsat o) .jsat three ∧ gives (.jexp o) .jexp three ∧ gives (.jref o) .jref three ∧ gives (.jdrf o) .jdrf three ∧
    gives (.jgc o) .jgc three ∧ gives (.jstat o) .jstat three ∧ gives (.jclr o) .jclr three ∧
    (((s.loom s.cur.loom).cmds .fill).length < 16 → enqueues s (.cqfill q seg a cnt) .fill 0#8 (fun c =>
      c.op = .cqfill ∧ c.args = [s.rS a] ∧ c.ac = seg.toNat ∧ c.dest = q.toNat ∧ c.rows = cnt.toNat + 1)) ∧
    (16 ≤ ((s.loom s.cur.loom).cmds .fill).length → exec (.cqfill q seg a cnt) s = .next { s with issue := none })

/-! ## Events: what the device does by itself, and what reaches it from outside -/

/-- The merge issues the first sequencer of its order that can issue, as its primary (R28, R29); a replay ends (R100); a granted
chunk pins what it asked for and takes its units (R54, R56); the entries of a fill are appended when its chunk ends (R156); a
command that has done its work leaves its queue and sets its token, and a jq result waits, in the order of the queue, for the
pick that clears it (R212, R239); a formed sum that is due reaches the port: each of its block sums is added to its element, scaled by the
exponents of its block's entry where a zadd of its tile executes, an entry of 0xFF making it the canonical NaN, and no other element
changes (R102, R103, R222, R223); the oldest message starts the lowest-numbered dormant
sequencer (R20, R229). -/
def Obligations.PicksAndChunksGoOn : Prop :=
  ∀ (s : State) (l : Nat), l < 1280 →
    let x := s.loom l
    (∀ (q : Nat) (rest : List Nat) (r : Ready) (u : State), s.issue = none → s.turn.agent = l → s.turn.stage = 0 →
      x.mergeOrder (s.loomCycles l) = q :: rest → (∀ p, s.comesToTaga l p = false) → s.assess (.loom l) q = (.ready r, u) → u.turn.fits r = true →
      u.excluded r = false → r.issuing ≠ [] →
      gives s (.pickIssue (.loom l)) (fun t => t.issue = some (r.issue (.loom l)) ∧ t.turn.stage = 1 ∧ t.turn.primary = q ∧
        t.turn.ready = rest)) ∧
    (∀ q c, q < 8 → (s.seq l q).replaying = some c → exec (.subnormalReplay l q) s =
      .next (s.updSeq l q (fun p => { p with replaying := none, replayed := true }))) ∧
    (∀ (e : Engine) (i : Nat) (c : Cmd) (p : Plan) (idx : List Nat), x.serves e s.cycle = some i →
      (x.cmds e)[i]? = some c → (∀ m ∈ [Mnemonic.post, .recall, .pushout, .reduce], c.op ≠ m) →
      (e = .jacquard → c.work.begun = true) → s.plan l e c 4096 = (p, idx) → p.distant = false → p.fault = none →
      s.lostPeer l c p.reach = false → s.firstFault l c.launch (s.cmdTenancy l c) p.reach = none →
      s.partialWrite l c.launch (s.cmdTenancy l c) p.reach = none →
      let needs := gatherNeeds (p.reach.flatMap (fun r => s.reachNeeds c.launch r))
      (s.request l (engineAgent e) c.launch c.stamp needs).1 = true →
      gives s (.chunkGrant l e) (fun t => ∃ c1 k, ((t.loom l).cmds e)[i]? = some c1 ∧ c1.chunk = some k ∧ c1.active = true ∧
        c1.cursor = c.cursor ∧ k.units = p.units ∧ k.pins = needs ∧ k.index = idx ∧ s.cycle < k.endsAt)) ∧
    (∀ (c : Cmd) (k : Chunk) (s1 : State), x.cmds .fill = [c] → c.chunk = some k → c.done = false →
      s.launchReset l c.launch = false →
      let u := s.updCmd l .fill 0 (fun c => { c with chunk := none, requested := some (s.cycle + 2) })
      u.reachReads l c.launch (s.cmdTenancy l c) false (u.chunkReach l .fill c k).1 = (none, s1) →
      s.lostPeer l c (u.chunkReach l .fill c k).1 = false →
      let old := Tab.get x.cq c.dest []
      let entry := fun (j : Nat) => BitVec.ofNat 32 (leNat ((List.range 4).map (fun b =>
        (localByte s l c.launch c.ac c.tag.toNat (c.entryAt (c.cursor.toNat + j) + b)).getD 0#8)))
      old.length + k.units ≤ 16 → gives s (.chunkRetire l .fill) (fun t =>
        Tab.get (t.loom l).cq c.dest [] = old ++ (List.range k.units).map entry)) ∧
    (∀ (e : Engine) (i : Nat) (c : Cmd) (tok : Nat), x.completes e = some (i, c) → c.rl = false → c.op ≠ .jgc →
      c.token = some tok → tok < 8 → (s.seq l c.seq).launch = c.launch → (s.seq l c.seq).status ≠ .dormant →
      gives s (.engineCommandComplete l e) (fun t => (t.loom l).cmds e = (x.cmds e).eraseIdx i ∧
        (t.seq l c.seq).dt = (s.seq l c.seq).dt ||| (1#8 <<< tok) ∧ (t.seq l c.seq).results =
          (if e = .jacquard then insertBy (fun (a b : JResult) => a.stamp < b.stamp)
            { stamp := c.stamp, token := tok, dest := c.dest, value := c.work.acc } (s.seq l c.seq).results
           else (s.seq l c.seq).results))) ∧
    (∀ (z : Option Nat) (c : Cmd) (sc : Scaled), x.portDue = some z → x.scaledCmd = some (c, sc) → sc.delivered < sc.formed →
      (∀ p ∈ sc.sums.headD [], p.1 < 128 ∧ p.2.1 < 128) →
      gives s (.partialSumArrival l) (fun t => (t.loom l).portDue = none ∧
        (((t.loom l).cmds .matrix).head?.bind (fun c => c.scaled)).map (fun x => x.delivered) = some (sc.delivered + 1) ∧
        (let y := x.settleScales c.seq (sc.arrival sc.delivered)
         let sums := sc.sums.headD []
         let elem := fun (v : Loom) (i j : Nat) => Tab.get v.acc (c.ac * 16384 + i * 128 + j) 0#32
         let scaled := fun (sum : BlockSum) (i j : Nat) =>
           if z = some c.ac then (match y.exponent c.ac (sc.delivered / ((shapeN c.shape + 31) / 32) % 2) i j with
             | some e => portAdd (elem x i j) sum e
             | none => 0x7FC00000#32)
           else portAdd (elem x i j) sum 0
         ((sums.map (fun p => (p.1, p.2.1))).Nodup → ∀ p ∈ sums, elem (t.loom l) p.1 p.2.1 = scaled p.2.2 p.1 p.2.1) ∧
         (∀ i j, i < 128 → j < 128 → (∀ p ∈ sums, (p.1, p.2.1) ≠ (i, j)) → elem (t.loom l) i j = elem x i j)) ∧
        ∀ k, k / 16384 ≠ c.ac → Tab.get (t.loom l).acc k 0#32 = Tab.get x.acc k 0#32)) ∧
    (∀ (m : Message) (r : LoomRun) (q : Nat) (rec : Seq), x.nextMessage = some m → x.run m.launch = some r →
      x.dormantOf r = some (q, rec) → gives s (.handlerStart l) (fun t => (t.loom l).landing = x.landing.erase m ∧
        (t.seq l q).status = .ready ∧ (t.seq l q).launch = m.launch ∧ (t.seq l q).pc = BitVec.ofNat 64 m.entry ∧
        (t.seq l q).rdS 1 = m.payload ∧ (t.seq l q).prio = rec.prio ∧ (t.seq l q).alloc = rec.alloc))

/-- What ends on a loom. A push writes the contents to the segment's spill slot, but for a readonly one, a recall brings them
back, and each leaves its segment where Table 3.2 says, as a move does; an allocation leaves it resident and zero, and an overlay's
granule stands ready for its copy and first write (R45, R47, R51, R52, R63). The oldest stalled taga that can be served is promised
the lowest free tag, live when it issues (R65). The next line of a tfold reaches the base whole, and after its segment's last line the
overlays are gone; a tret, and a tfold when none is left, frees its tag (R66, R68). That a cycle writes one line on each loom is the
model's (log 86). An arrival changes its object as Table 11.8 says
(R158), and a wait that times out returns code 1 (R386). A group that falls due is refreshed by the controller (R78, R373); a
vault's band is noted (R79); the oldest access of the shared banks performs: a vstr's bytes stand there, a vldr's go to the landing that
awaits them (R82). -/
def Obligations.LoomUnitsEndWhatTheyDo : Prop :=
  ∀ (s : State) (l : Nat), l < 1280 →
    let x := s.loom l
    (∀ (m : Transfer) (r : LoomRun) (seg tag line home : Nat) (g : Segment) (o : Overlay), x.transfer = some m → x.ecc = [] →
      s.wasReset m.launch = false →
      x.waiters = [] → x.run m.launch = some r → Tab.find? r.segs seg = some g →
      let ends := fun (i : Instr) (mv : Move) (ok : State → LoomRun → Prop) => m.move = mv →
        gives s i (fun t => (t.loom l).transfer = none ∧ ∃ r1, (t.loom l).run m.launch = some r1 ∧ ok t r1)
      let leaves := fun (i : Instr) (mv : Move) (g1 : Segment) => ends i mv (fun _ r1 => Tab.find? r1.segs seg = some g1)
      let first := 28 * 32768 + r.spillBase / 64 + r.slotStart seg / 64
      let inShare := fun (k : Nat) => k < g.size / 64 ∧ r.slotStart seg / 64 + k < r.spillShare / 64
      (g.state = .pushing → ends (.spindleTransferComplete l) (.push seg) (fun t r1 =>
        Tab.find? r1.segs seg = some { g with state := .pushed, home := 0, data := [], poison := [] } ∧
        (g.readonly = false → ∀ k j, inShare k → j < 64 →
          vaultByte t l (64 * (first + k) + j) = Memory.read g.data (64 * k + j)) ∧
        (g.readonly = true → ∀ a, vaultByte t l a = vaultByte s l a))) ∧
      (g.state = .recalling → ends (.spindleTransferComplete l) (.recall seg) (fun _ r1 =>
        ∃ g1, Tab.find? r1.segs seg = some g1 ∧ g1.state = .resident ∧ g1.ref = false ∧ g1.home = g.home ∧ g1.size = g.size ∧
        ∀ k j, inShare k → j < 64 → Memory.read g1.data (64 * k + j) = vaultByte s l (64 * (first + k) + j))) ∧
      (g.state = .compacting → leaves (.spindleTransferComplete l) (.compact seg home) { g with state := .resident }) ∧
      (g.state = .allocating →
        leaves (.allocationComplete l) (.allocate seg) { g with state := .resident, data := [], poison := [] }) ∧
      (r.overlay seg tag line = some o → ends (.overlayMaterialise l) (.materialise seg tag line) (fun _ r1 =>
        r1.overlay seg tag line = some { o with state := .resident }))) ∧
    (∀ (c n g : Nat) (w : TagStall), c < 80 → n < 64 → s.tagService c n = .grant w →
      (s.allocator c n).grant w.launch w.quota = some g → (s.seq w.loom w.seq).launch = w.launch →
      ((s.seq w.loom w.seq).status = .ready ∨ ∃ since, (s.seq w.loom w.seq).status = .waiting (.tag since)) → gives s (.tagGrant c n) (fun t => (t.seq w.loom w.seq).status = .ready ∧
        (t.seq w.loom w.seq).granted = some (BitVec.ofNat 12 g) ∧
        (t.allocator c n).promised = Tab.put (s.allocator c n).promised g w.launch ∧
        (t.allocator c n).live = (s.allocator c n).live ∧
        (t.allocator c n).stalled = (s.allocator c n).stalled.erase w)) ∧
    (∀ (c n : Nat) (tag : BitVec 12) (o : TagOp), c < 80 → n < 64 →
      (s.allocator c n).ops.find? (fun o => o.tag = tag.toNat) = some o →
      (o.fold = false ∨ (o.folding = [] ∧ ∀ k ∈ loomsOf c, ∀ r, (s.loom k).run o.launch = some r → ∀ v ∈ r.overlays, v.tag ≠ o.tag)) →
      (∀ k ∈ loomsOf c, (s.loom k).waiters = []) → (s.seq o.loom o.seq).launch = o.launch →
      (s.seq o.loom o.seq).status = .waiting (.tagOp o.tag) → gives s (.tagFreed c n tag) (fun t =>
        (∀ k ∈ loomsOf c, ∀ r, (t.loom k).run o.launch = some r → ∀ v ∈ r.overlays, v.tag ≠ o.tag) ∧
        (∀ p ∈ (t.allocator c n).ops, p.tag ≠ o.tag) ∧ (t.seq o.loom o.seq).status = .ready)) ∧
    (∀ (n : Nat) (o : TagOp) (f : Folding) (r : LoomRun) (g : Segment), Tab.find? o.folding l = some f → x.ecc = [] →
      x.waiters = [] → x.run o.launch = some r → Tab.find? r.segs f.seg = some g →
      let t := s.foldOn l n o
      let base := fun (u : State) (sg y : Nat) => localByte u l o.launch sg 0 y
      (∀ (k : Nat) (rest : List Nat) (v : Overlay), f.left = k :: rest → r.overlay f.seg o.tag k = some v →
        (∀ j, j < 64 → base t f.seg (64 * k + j) = some (Memory.read v.data j)) ∧
        (∀ y, (y < 64 * k ∨ 64 * k + 64 ≤ y) → base t f.seg y = base s f.seg y) ∧
        (∀ sg y, sg ≠ f.seg → base t sg y = base s sg y)) ∧
      (f.left = [] → (∀ sg y, base t sg y = base s sg y) ∧
        ∃ r1, (t.loom l).run o.launch = some r1 ∧ ∀ v ∈ r1.overlays, v.tag ≠ o.tag ∨ v.seg ≠ f.seg)) ∧
    (∀ (a : Arrival) (rest : List Arrival) (r : LoomRun) (g : Segment) (o : BarrierObj), x.arriving = a :: rest →
      (∀ k ∈ loomsOf (l / 16), (s.loom k).shared = []) → (s.loom a.object.loom).waiters = [] →
      (s.loom a.object.loom).run a.launch = some r → Tab.find? r.segs a.object.seg = some g →
      s.barrierAt a.launch a.object = some o → (s.loom a.object.loom).ecc = [] → g.poison = [] →
      gives s (.arrivalUpdate l) (fun t => (t.loom l).arriving = rest ∧
        t.barrierAt a.launch a.object = some (o.arrive a.n).1)) ∧
    (∀ (q d e : Nat) (r : BarrierRef), q < 8 → (s.seq l q).status = .waiting (.barrier r d (some e) true) →
      e ≤ s.cycle → gives s (.waitTimeout l q) (fun t => (t.seq l q).status = .ready ∧ ∃ f,
        (t.seq l q).flight = (s.seq l q).flight ++ [f] ∧ f.dest = .s d ∧ f.value.extractLsb' 0 4 = 1#4 ∧
        f.step = (s.seq l q).steps ∧ f.data = .yes)) ∧
    (∀ (b g id q d : Nat) (r : LoomRun), b < 20 → g < 8 → x.bankOwner b = some (id, r, q) → x.deadline r b g = some d →
      d ≤ s.cycle → gives s (.refreshDeadline l b g) (fun t => ((t.loom l).bank b).row = none ∧
        (∃ e, ((t.loom l).bank b).refreshEnds = some e ∧ s.cycle < e ∧ e ≤ s.cycle + 200) ∧
        Tab.find? (t.loom l).refresh (b * 8 + g) = some s.cycle ∧ (r.suspended = false → oneRecord s t r.tenancy))) ∧
    (∀ (b : Nat) (k : BankState), b < 20 → Tab.find? x.banks b = some k → exec (.controllerRefreshEnd l b) s =
      .next (s.updLoom l (fun y => { y with banks := Tab.put y.banks b { k with refreshEnds := none } }))) ∧
    (∀ band, band < 3 → (∀ p ∈ x.runs, band ≤ p.2.band) → exec (.vaultTemperatureChange l band) s =
      .next (s.updLoom l (fun y => { y with temperature := band }))) ∧
    (∀ (a : SharedAccess) (rest : List SharedAccess), x.shared = a :: rest → a.write = true →
      gives s (.sharedBankServe l) (fun t => (t.loom l).shared = rest ∧
        (∀ j, j < a.bytes.length → vaultByte t l (a.addr + j) = a.bytes.getD j 0#8) ∧
        ∀ b, (b < a.addr ∨ a.addr + a.bytes.length ≤ b) → vaultByte t l b = vaultByte s l b)) ∧
    (∀ (a : SharedAccess) (rest : List SharedAccess), x.shared = a :: rest → a.write = false → a.unseen = [] → x.ecc = [] →
      (∀ k ∈ linesOf a.addr 128, k ∉ x.vaultPoison) → (∀ w ∈ x.lastWrites, w.tenancy = a.tenancy) →
      (s.seq a.fromLoom a.seq).launch = a.launch → (s.seq a.fromLoom a.seq).status ≠ .dormant →
      gives s (.sharedBankServe l) (fun t => (t.loom l).shared = rest ∧ (∀ b, vaultByte t l b = vaultByte s l b) ∧
        ∃ value : VReg, (∀ j, j < 128 → byteOf value j = vaultByte s l (a.addr + j)) ∧
          (t.seq a.fromLoom a.seq).flight = (s.seq a.fromLoom a.seq).flight.map (fun f =>
            if f.data = .awaited a.id then { f with value := value, data := .yes } else f)))

/-- What ends or fails far away (R86, R264, R271, R363, R377), and the loss of a loom (R322 to R324): a far read brings its
bytes to the landing that awaits it, or 0x407 when none comes in time; the oldest write of a stack's queue reads back at its
target, or is lost with a record where its target refuses it and it has not been settled before; a peer's write stands in tier-2 memory under the
key of its slot, the other bytes of its line as that key reads them (R89; log 25); a contained loom holds no launch, is quarantined, and
its reset, when it ends, returns it to service. That containment acts at once is the model's (log 48). -/
def Obligations.FarEventsAndLoomLossGiveTheirEffect : Prop :=
  ∀ (s : State) (l : Nat), l < 1280 →
    let x := s.loom l
    (∀ (id : Nat) (r : FarRead), Tab.find? s.farReads id = some r → (s.seq r.loom r.seq).launch = r.launch →
      (s.seq r.loom r.seq).status ≠ .dormant →
      let brings := fun (t : State) (d : Returned) => Tab.find? t.farReads id = none ∧ (t.seq r.loom r.seq).flight =
        (s.seq r.loom r.seq).flight.map (fun f => if f.data = .awaited id then
          { f with value := BitVec.ofNat 1024 (leNat r.value), data := d } else f)
      (r.found = none → s.unreachable r.target.1 r.target.2.2 = false →
        gives s (.farReadCompletion id .ok) (fun t => brings t .yes)) ∧
      (r.issued + Config.completionTimeout ≤ s.cycle → gives s (.farCompletionTimeout id) (fun t =>
        brings t (.failed { code := 0x407, operand := operandOf r.window 0 r.offset })))) ∧
    (∀ (k : Nat) (w : FarWrite) (rest : List FarWrite), k < 5 → Tab.get s.farQueues k [] = w :: rest →
      (s.unreachable w.kind w.addr = false → gives s (.farWritePerform k true) (fun t => Tab.get t.farQueues k [] = rest ∧
        ∀ j, j < w.bytes.length → t.farByte w.kind w.peer w.key (w.addr + j) = w.bytes.getD j 0#8)) ∧
      (w.settled = true → s.unreachable w.kind w.addr = false → exec (.farWritePerform k false) s = exec (.farWritePerform k true) s) ∧
      (w.settled = false → gives s (.farWritePerform k false) (fun t => Tab.get t.farQueues k [] = rest ∧ farAsBefore s t ∧
        oneRecord s t w.tenancy))) ∧
    (∀ (p : PeerAccess), p.write = true → s.unreachable 1 p.addr = false → gives s (.peerAccessArrival p) (fun t =>
      let key := Tab.get s.keys p.key 0#512
      (∀ j, j < p.bytes.length → t.farByte 1 0 key (p.addr + j) = p.bytes.getD j 0#8) ∧
      (∀ b, (b < p.addr ∨ p.addr + p.bytes.length ≤ b) → t.farByte 1 0 key b = s.farByte 1 0 key b) ∧
      ∀ b, (∀ j, j < p.bytes.length → (p.addr + j) / 64 ≠ b / 64) → tier2Byte t b = tier2Byte s b)) ∧
    (∀ (c : Cmd) (w : Nat) (r : LoomRun), x.cmds .shuttle = [c] → c.op = .reduce → c.stopped = false →
      c.waitedSince = some w → w + Config.reducePatience < s.cycle → x.run c.launch = some r → c.waitReported = false →
      gives s (.reducePartnerTimeout l) (fun t => (t.loom l).cmds .shuttle = [{ c with waitReported := true }] ∧
        oneRecord s t r.tenancy)) ∧
    (x.contained = false → (∀ k ∈ loomsOf (l / 16), (s.loom k).waiters = []) → gives s (.containment l) (fun t =>
      (t.loom l).contained = true ∧ (t.loom l).quarantined = true ∧ (t.loom l).runs = [] ∧ (t.loom l).seqs = [] ∧
      (t.loom l).containments = x.containments + 1)) ∧
    (x.quarantined = true → x.containments < 2 → x.resetEnds = none → gives s (.loomReset l) (fun t =>
      (∃ e, (t.loom l).resetEnds = some e ∧ s.cycle < e ∧ e ≤ s.cycle + 1048576) ∧ (t.loom l).seqs = [] ∧
      ∀ a, vaultByte t l a = 0#8)) ∧
    (∀ e, x.resetEnds = some e → x.remap1 = true → x.remap2 = true → exec (.loomResetComplete l) s =
      .next (s.updLoom l (fun y => { y with
        contained := false, quarantined := false, resetEnds := none, resetCycle := s.cycle + 1 })))

/-- A launch from the reading of its block to its end (R280, R281, R283), and how a loom changes hands (R285, R286): a block
whose CHK does not match is read again after 256 × 2^(n − 1) cycles, one that matches gives its fields; when the copies are done
the launch is refused, its token set, or waits; it starts when every loom accepts it; when it is over its token is set. A watched
word that has changed lands (R166), or the error that the read of it meets (log 59). A quantum that ends requests a switch, or begins afresh where no other tenancy waits; when
all stand at their switch points the saving begins; then the loom is free; and the next tenancy holds it for its quantum, unless its weight has become 0 (R338). -/
def Obligations.LaunchesAndSwitchesGoOn : Prop :=
  ∀ (s : State) (id : Nat) (y : Launch), Tab.find? s.launches id = some y → y.token < 8 →
    let phase := fun (t : State) => (Tab.find? t.launches id).map (fun z => z.phase)
    let tokenSet := fun (t : State) => (t.tenancy y.tenancy).stream.dt.getLsbD y.token = true
    (∀ n e s1, y.phase = .reading n e → s.launchRead y.tenancy y.block 64 .ok = (none, s1) →
      let block := s1.streamBytes y.tenancy y.block 64
      (blockMatches block = false → n < 9 → gives s (.launchBlockReadDone id .ok) (fun t =>
        phase t = some (.backingOff n (s.cycle + 256 * 2 ^ (n - 1))))) ∧
      (blockMatches block = true → blockBad block = false → blockFlags block = 0 →
        gives s (.launchBlockReadDone id .ok) (fun t => ∃ z u, Tab.find? t.launches id = some z ∧ z.phase = .copying 0 u ∧
          s.cycle < u ∧ z.image = leNat (block.take 8) ∧ z.place = blockPlace block ∧ z.blockBytes = block))) ∧
    (∀ n e, y.phase = .backingOff n e → e ≤ s.cycle → gives s (.launchBlockRefetch id) (fun t =>
      ∃ u, phase t = some (.reading (n + 1) u) ∧ s.cycle < u)) ∧
    (∀ n e, y.phase = .copying n e → blockCopies y.blockBytes ≤ n → (s.tenancy y.tenancy).signals = [] →
      (s.launchRefusal y = none → exec (.launchCopiesDone id .ok) s =
        .next (s.updLaunch id (fun z => { z with phase := .waiting, accepted := some s.cycle }))) ∧
      (∀ code, s.launchRefusal y = some code → gives s (.launchCopiesDone id .ok) (fun t => phase t = some .ended ∧
        tokenSet t ∧ oneRecord s t y.tenancy ∧ t.looms = s.looms))) ∧
    (∀ img, y.phase = .waiting → Tab.find? (s.tenancy y.tenancy).images y.image = some img → s.mayBegin id y = true →
      gives s (.launchStart id) (fun t => phase t = some .running ∧
        ∀ p ∈ img.looms (s.tenancy y.tenancy).partition y.place, ((t.loom p.1).run id).isSome = true)) ∧
    (s.launchOver id y = true → gives s (.launchComplete id) (fun t => phase t = some .ended ∧ tokenSet t)) ∧
    (∀ n d v dest code s1, n < 64 → (s.tenancy n).stream.status = .waiting (.watch d v dest) → s.streamRead n d 8 = (code, s1) →
      let w := BitVec.ofNat 64 (leNat (s.streamBytes n d 8))
      let lands := fun (ok : Landing → Prop) => gives s (.watchedWordChange n) (fun t => (t.tenancy n).stream.status = .ready ∧ ∃ f,
        (t.tenancy n).stream.flight = (s.tenancy n).stream.flight ++ [f] ∧ f.dest = .s dest ∧
        f.step = (s.tenancy n).stream.steps ∧ ok f)
      (code = none → w ≠ v → lands (fun f => f.value = w.zeroExtend 1024 ∧ f.data = .yes)) ∧
      (∀ x, code = some x → lands (fun f => f.data = .failed { code := x, operand := operandOf (farWindow d) 0 (farOffset d) }))) ∧
    (∀ (l n : Nat), l < 1280 →
      let x := s.loom l
      (x.switching = none → x.holder = some n → x.quantumEnds ≤ s.cycle → x.weight n ≠ 0 →
        (x.nextTenancy n = none → gives s (.quantumExpiry l) (fun t => (t.loom l).holder = some n ∧
          (t.loom l).quantumEnds = s.cycle + x.weight n * 65536 ∧ (t.loom l).switching = none)) ∧
        (∀ m, x.nextTenancy n = some m → gives s (.quantumExpiry l) (fun t =>
          ((t.loom l).switching.map (fun w => w.outgoing)) = some n))) ∧
      (∀ w, x.switching = some w → w.restoresAt = none →
        (w.savesAt = none → x.allReached w = true → x.scaledCmd = none → gives s (.fullSwitch l) (fun t =>
          ∃ e, ((t.loom l).switching.bind (fun v => v.savesAt)) = some e ∧ s.cycle < e)) ∧
        (∀ e, w.savesAt = some e → gives s (.fullSwitch l) (fun t => (t.loom l).holder = none ∧
          (t.loom l).lastHolder = w.outgoing ∧ (t.loom l).seqs = []))) ∧
      (∀ w e, x.switching = some w → w.restoresAt = some e → w.incoming = some n → x.weight n = 0 →
        gives s (.switchInComplete l) (fun t => (t.loom l).holder = x.holder ∧ (t.loom l).switching = none)) ∧
      (∀ w e, x.switching = some w → w.restoresAt = some e → w.incoming = some n → x.hosts n = true → x.weight n ≠ 0 →
        gives s (.switchInComplete l) (fun t => (t.loom l).holder = some n ∧ (t.loom l).switching = none ∧
          (t.loom l).quantumEnds = s.cycle + x.weight n * 65536)))

/-- The registers of a virtual function (R276, R294 to R299, R302, R312, R317, R318, R391, R397 to R399, R404 to R406): SPC
starts an idle stream with s1 at SARG, SHALT stops it, SRESUME lets it go on, and performs a failed launch again where asked;
SNAPGO captures, and its record is written when the signing ends; a write of a plain register stands there; DBGRESUME resumes the
named stopped sequencers of the selected loom; a comparator is written for the next cycle; DUMPGO captures, the image precedes
the header, and an abandoned dump ends; FLTACK frees entries, FLTRETRY restarts the command of a chunk-boundary stop, and FLTEND
ends the record's launch, at once (log 48). A read of BAR0 returns the records, FLTSTAT and the plain registers, and DBGSTOP and TRACECOUNT as 0
while no loom is selected; a device in recovery starts no stream (R401). That SPC takes an offset that is no multiple of 16 as it is, is the
model's (log 67). -/
def Obligations.RegisterWritesGiveTheirEffect : Prop :=
  ∀ (s : State) (n : Nat) (v : DWord), n < 64 →
    let x := s.tenancy n
    let idle := v ≠ 1#64
    let now := fun (t : State) => t.tenancy n
    (s.boot.recovery = true → exec (.spcWrite n v) s = .next s) ∧
    (s.boot.recovery = false → x.streamState = 0 → gives s (.spcWrite n v) (fun t => (now t).streamState = 1 ∧ (now t).stream.status = .ready ∧
      (now t).stream.pc = v ∧ (now t).stream.rdS 1 = x.sarg ∧ (now t).spc = v)) ∧
    (s.boot.recovery = false → x.streamState ≠ 0 → gives s (.spcWrite n v) (fun t => now t = { x with spc := v })) ∧
    gives s (.shalt n 1#64) (fun t => (now t).streamState = 0 ∧ (now t).streamCode = 0 ∧ (now t).stream.status = .dormant) ∧
    (idle → gives s (.shalt n v) (fun t => now t = x)) ∧
    (∀ st, x.streamState = 3 → x.stream.status = .stopped st →
      let on := fun (t : State) => (now t).streamState = 1 ∧ (now t).stream.status = .ready ∧
        (now t).stream.resuming = if st.counted && !st.whole then some st else none
      (v.getLsbD 0 = true → gives s (.sresume n v) on) ∧
      gives s (.sresumeRelaunch n) (fun t => on t ∧ ∀ id y, x.failedLaunch = some id → Tab.find? s.launches id = some y →
        ∃ e, s.cycle < e ∧ Tab.find? t.launches id = some { y with phase := .reading 1 e, blockBytes := [], args := [] })) ∧
    (x.snapgo = false → gives s (.snapgo n 1#64) (fun t => (now t).snapgo = true ∧ (now t).nextSnap = x.nextSnap + 1 ∧
      ∃ sn, (now t).snapshot = some sn ∧ sn.seqno = x.nextSnap ∧ sn.addr = x.snapaddr.toNat ∧
        sn.bytes = s.snapshotBytes n ∧ s.cycle < sn.endsAt)) ∧
    (idle ∨ x.snapgo = true → exec (.snapgo n v) s = .next s) ∧
    (∀ sn, x.snapshot = some sn →
      let done := fun (k code : Nat) => gives s (.snapshotComplete n k) (fun t => (now t).snapgo = false ∧
        (now t).snapstat = BitVec.ofNat 64 (sn.seqno * 256 + code) ∧
        ∀ j, j < sn.bytes.length → hostByte t (sn.addr + j) = sn.bytes.getD j 0#8)
      done 1 1 ∧ done 2 1 ∧ done 0 2) ∧
    (gives s (.registerWrite n 0x008 v) (fun t => now t = { x with sarg := v }) ∧
     gives s (.registerWrite n 0x020 v) (fun t => now t = { x with snapaddr := v }) ∧
     gives s (.registerWrite n 0x028 v) (fun t => now t = { x with snapnonce := v }) ∧
     gives s (.registerWrite n 0x1030 v) (fun t => now t = { x with dumpaddr := v }) ∧
     gives s (.registerWrite n 0x1038 v) (fun t => now t = { x with dumplen := v.extractLsb' 0 32 })) ∧
    (x.dump = none → v.toNat < 1280 → x.partition.contains (v.toNat / 16) = true →
      gives s (.dbgloomWrite n v) (fun t => now t = { x with dbgloom := v.extractLsb' 0 11 })) ∧
    (∀ l, s.selected n = some l → x.dump = none →
      gives s (.dbgresume n v) (fun t => ∀ q st r, q < 8 → (s.seq l q).status = .stopped st →
        (s.loom l).run (s.seq l q).launch = some r → r.tenancy = n →
        (t.seq l q).status = if v.getLsbD q then .ready else .stopped st)) ∧
    (∀ l c, s.selected n = some l → c < 16 → exec (.compWrite n c v) s = .next (s.updLoom l (fun y =>
      { y with compWrites := y.compWrites ++ [(n, c, v &&& 0xFFFFFFF8003FFFF0#64)] }))) ∧
    (∀ l, s.selected n = some l → x.dumpgo = false → gives s (.dumpgo n 1#64) (fun t => (now t).dumpgo = true ∧
      ∃ d, (now t).dump = some d ∧ d.loom = l ∧ d.addr = x.dumpaddr.toNat ∧ s.cycle < d.endsAt)) ∧
    (idle → exec (.dumpgo n v) s = .next s) ∧
    (∀ d, x.dump = some d →
      (d.small = false → d.header.length ≤ 64 → gives s (.dumpComplete n) (fun t => (now t).dumpgo = false ∧
        (now t).dumpstat = BitVec.ofNat 64 ((d.image.length + d.header.length) * 2 ^ 32 + 1) ∧
        (∀ j, j < d.image.length → hostByte t (d.addr + 64 + j) = d.image.getD j 0#8) ∧
        ∀ j, j < d.header.length → hostByte t (d.addr + j) = d.header.getD j 0#8)) ∧
      ∀ sent, sent ≤ d.image.length → d.poisoned = [] → gives s (.dumpAbandon n sent) (fun t => (now t).dumpgo = false ∧
        (now t).dumpstat = BitVec.ofNat 64 (sent * 2 ^ 32 + 3) ∧ oneRecord s t n)) ∧
    exec (.fltack n v) s = .next (s.updTenancy n (fun y => { y with fltCount := y.fltCount - v.toNat })) ∧
    (∀ r, Tab.find? x.faults (v.extractLsb' 0 6).toNat = some r →
      (∀ e c more, agentEngine r.agent = some e → r.stop = 1 → r.loom < 1280 → (s.loom r.loom).cmds e = c :: more →
        c.stopped = true → r.command = some (c.seq, c.stamp) → r.launch = some c.launch → (∀ d ∈ more, r.names d = false) →
        gives s (.fltretry n v) (fun t => ∃ c1, ((t.loom r.loom).cmds e) = c1 :: more ∧ c1.stopped = false ∧
          c1.requested = some (s.cycle + 1) ∧ c1.cursor = c.cursor ∧ c1.args = c.args)) ∧
      (∀ id, r.launch = some id → exec (.fltend n v) s = .next (s.endLaunchNow id)) ∧
      (∀ j, j < 4 → s.barRead n (0x2000 + 32 * (v.toNat % 64) + 8 * j) =
        [r.word1 ++ r.word0, r.pick, r.step, r.operand].getD j 0#64)) ∧
    s.barRead n 0x1800 = BitVec.ofNat 64 (x.fltLost * 65536 + x.fltCount * 256 + x.fltWr) ∧
    s.barRead n 0x000 = x.spc ∧ s.barRead n 0x008 = x.sarg ∧ s.barRead n 0x040 = x.snapstat ∧
    s.barRead n 0x1000 = x.dbgloom.zeroExtend 64 ∧ s.barRead n 0x1048 = x.dumpstat ∧
    (s.selected n = none → s.barRead n 0x1010 = 0#64 ∧ s.barRead n 0x1028 = 0#64)

/-- The host and the management controller (R8, R89, R282, R285, R288, R396, R397, R400 to R402): a posted write to the
aperture is visible now or waits, and one that is not relaxed only after every earlier one (R393); a read gives the bytes of tier-2
memory under the key of its window; a function-level reset ends the tenancy's launches and idles its
stream, and keeps its counters, what the looms and what its port have counted; a device reset clears every loom and keeps tier-2 memory; a start in which nothing fails leaves
nothing out of service, and one whose firmware fails twice stays in recovery; a cleared entry stands in the other copy with the
next generation; a body is signed only with status 0; a weight of 0 stands and is reported for a placed launch that it keeps from its loom
(R338); weights, partitions, keys and the domain stand as they are set. The model's
own are: a malformed body answers 3 before the other tests (log 29), which of the two a posted write does (log 27), the key of an aperture access (log 45), what a device reset keeps, the cycles
going on and the epoch with it (log 22), and that a function-level reset acts at once (log 48). -/
def Obligations.ControllerEventsGiveTheirEffect : Prop :=
  ∀ (s : State) (n : Nat), n < 64 →
    let x := s.tenancy n
    (∀ (w : HostWrite), w.tenancy = n →
      (w.toHost = true → gives s (.hostPostedWrite w) (fun t =>
        ∀ j, j < w.bytes.length → hostByte t (w.addr + j) = w.bytes.getD j 0#8)) ∧
      (w.toHost = false → s.unreachable 1 w.addr = false → gives s (.hostPostedWrite w) (fun t =>
        ((t.tenancy n).hostPosted = x.hostPosted ++ [w] ∧ ∀ a, tier2Byte t a = tier2Byte s a) ∨
        ((w.relaxed = false → (t.tenancy n).hostPosted = []) ∧ ∀ j, j < w.bytes.length →
          t.farByte 1 0 (s.apertureKey n w.addr) (w.addr + j) = w.bytes.getD j 0#8)))) ∧
    (∀ addr size r, r = true ∨ x.hostPosted = [] → gives s (.hostReadRequest n addr size r) (fun t =>
      (t.tenancy n).hostRead = some (addr, (List.range size).map (fun i =>
        s.farByte 1 0 (s.apertureKey n addr) (addr + i))))) ∧
    gives s (.functionLevelReset n) (fun t => (t.tenancy n).streamState = 0 ∧ (t.tenancy n).stream = Seq.reset ∧
      (t.tenancy n).windows = [] ∧ (t.tenancy n).fltCount = 0 ∧ (t.tenancy n).ports = x.ports ∧
      (∀ l k, l < 1280 → (t.loom l).counter n k = (s.loom l).counter n k) ∧
      (t.tenancy n).nextSnap = x.nextSnap ∧
      (∀ p ∈ t.detected, p.1 ≠ n) ∧ ∀ id y, Tab.find? t.launches id = some y → y.tenancy = n → y.phase = .ended) ∧
    gives s .deviceReset (fun t => (∀ l q, t.seq l q = Seq.reset) ∧ (∀ l a, vaultByte t l a = 0#8) ∧ t.launches = [] ∧
      (∀ a, tier2Byte t a = tier2Byte s a) ∧ (∀ m k, t.counterTotal m k = Counter.zero) ∧ t.cycle = s.cycle ∧
      t.epoch = s.cycle + 1) ∧
    (s.boot.current.entries = [] → (∀ l, (s.loom l).remap1 = true ∧ (s.loom l).remap2 = true) → gives s (.deviceBoot []) (fun t => t.boot.out = [] ∧ t.boot.recovery = false ∧ t.boot.imageB = false ∧
      ∀ l, (t.loom l).offline = false)) ∧
    (∀ fs, (∀ b ∈ [true, false], ({ unit := .firmware, alternate := b } : BootFailure) ∈ fs) →
      gives s (.deviceBoot fs) (fun t => t.boot.recovery = true)) ∧
    (∀ u, gives s (.bootRecordClear u) (fun t =>
      let c : BootCopy := { generation := s.boot.current.generation + 1#32, valid := true,
                            entries := Tab.drop s.boot.current.entries (unitNumber u) }
      t.boot = if s.boot.currentIsA then { s.boot with copyB := c } else { s.boot with copyA := c })) ∧
    (∀ (b : MembershipBody) (k : Nat),
      let malformed := b.n = 0#16 ∨ 4096 < b.n.toNat ∨ b.devids.length ≠ b.n.toNat ∨
        ascending (b.devids.map (fun d => leBytes 32 d.toNat)) = false ∨ s.domain ≠ some b.domain
      let signs := fun (status : Nat) => gives s (.membershipSign b k) (fun t =>
        ∃ m, t.membership = some m ∧ m.status = status ∧ (status ≠ 0 → m.signature = []))
      (malformed → signs 3) ∧ (¬malformed → Config.devid ∉ b.devids → signs 1) ∧
      (¬malformed → Config.devid ∈ b.devids → (b.fwhash ≠ s.fwhash → signs 2) ∧
        (b.fwhash = s.fwhash → (k = 1 ∨ k = 2 → signs 0) ∧ (¬(k = 1 ∨ k = 2) → signs 4)))) ∧
    (∀ l (w : BitVec 8), l < 1280 → w ≠ 0#8 → exec (.weightSet l n w) s =
      .next (s.updLoom l (fun y => { y with weights := Tab.put y.weights n w }))) ∧
    (∀ l, l < 1280 → gives s (.weightSet l n 0#8) (fun t => memoryAsBefore s t ∧ Tab.find? (t.loom l).weights n = some 0#8 ∧
      ((s.loom l).holder ≠ some n → (∃ p ∈ (s.loom l).runs, p.2.tenancy = n ∧ p.2.stallReported = false) →
        ∃ r ∈ t.detected, r.1 = n ∧ r.2.word0 = recordWord0 3 3 0#14 0xA2C))) ∧
    (∀ cs : List Nat, (∀ c ∈ cs, c < 80) → gives s (.partitionAssign n cs) (fun t =>
      (t.tenancy n).partition.Pairwise (· < ·) ∧ ∀ c, c ∈ (t.tenancy n).partition ↔ c ∈ cs)) ∧
    (∀ (k : BitVec 13) (key : BitVec 512), gives s (.keySlotLoad k key) (fun t =>
      ∀ j, Tab.get t.keys j 0#512 = if j = k.toNat then key else Tab.get s.keys j 0#512)) ∧
    (∀ (d : BitVec 16) (k : BitVec 12), exec (.domainJoin d k) s =
      .next { s with domain := some d, deviceNumber := k })
end

