-- ==== Sys2Proof/Laws/Tab.lean ====
section
/-!
SUPPORT. What the operations of tables and memories do: a read after a write, and the canonical forms that they keep.
-/

namespace Sys2Proof

/-! ## Tables -/

@[simp] theorem Tab.find?_nil {α : Type} (k : Nat) : Tab.find? ([] : Tab α) k = none := rfl
@[simp] theorem Tab.get_nil {α : Type} (k : Nat) (d : α) : Tab.get ([] : Tab α) k d = d := rfl

/-- Entry k after entry k has been set. -/
@[simp] theorem Tab.find?_put_self {α : Type} (t : Tab α) (k : Nat) (a : α) : Tab.find? (Tab.put t k a) k = some a := by
  induction t with
  | nil => simp [Tab.put, Tab.find?]
  | cons p r ih =>
    obtain ⟨j, b⟩ := p
    simp only [Tab.put]
    split
    · simp [Tab.find?]
    · split
      · simp [Tab.find?]
      · simp [Tab.find?, *]
/-- Another entry is as before. -/
theorem Tab.find?_put_ne {α : Type} (t : Tab α) {k j : Nat} (a : α) (h : j ≠ k) :
    Tab.find? (Tab.put t k a) j = Tab.find? t j := by
  induction t with
  | nil => simp [Tab.put, Tab.find?, h.symm]
  | cons p r ih =>
    obtain ⟨i, b⟩ := p
    simp only [Tab.put]
    split
    · subst_vars; simp [Tab.find?, h.symm]
    · split
      · simp [Tab.find?, h.symm]
      · simp [Tab.find?, ih]
/-- Any entry after one has been set. -/
theorem Tab.find?_put {α : Type} (t : Tab α) (k j : Nat) (a : α) :
    Tab.find? (Tab.put t k a) j = if j = k then some a else Tab.find? t j := by
  split
  · subst_vars; simp
  · exact Tab.find?_put_ne t a ‹_›
@[simp] theorem Tab.get_put_self {α : Type} (t : Tab α) (k : Nat) (a d : α) : Tab.get (Tab.put t k a) k d = a := by
  simp [Tab.get]
theorem Tab.get_put {α : Type} (t : Tab α) (k j : Nat) (a d : α) :
    Tab.get (Tab.put t k a) j d = if j = k then a else Tab.get t j d := by
  simp only [Tab.get, Tab.find?_put]
  split <;> rfl

/-- An entry that has been removed, wherever it stood. -/
@[simp] theorem Tab.find?_drop_self {α : Type} (t : Tab α) (k : Nat) : Tab.find? (Tab.drop t k) k = none := by
  induction t with
  | nil => rfl
  | cons p r ih =>
    obtain ⟨j, b⟩ := p
    simp only [Tab.drop]
    split
    · exact ih
    · simp [Tab.find?, *]
theorem Tab.find?_drop_ne {α : Type} (t : Tab α) {k j : Nat} (h : j ≠ k) : Tab.find? (Tab.drop t k) j = Tab.find? t j := by
  induction t with
  | nil => rfl
  | cons p r ih =>
    obtain ⟨i, b⟩ := p
    simp only [Tab.drop]
    split
    · subst_vars; simp [Tab.find?, h.symm, ih]
    · simp [Tab.find?, ih]
/-- Any entry after one has been set, where the default is not listed. -/
theorem Tab.get_set {α : Type} [DecidableEq α] (t : Tab α) (k j : Nat) (a d : α) :
    Tab.get (Tab.set t k a d) j d = if j = k then a else Tab.get t j d := by
  unfold Tab.set
  split
  · subst_vars
    split
    · subst_vars; simp [Tab.get]
    · simp [Tab.get, Tab.find?_drop_ne t ‹_›]
  · exact Tab.get_put t k j a d
@[simp] theorem Tab.get_set_self {α : Type} [DecidableEq α] (t : Tab α) (k : Nat) (a d : α) :
    Tab.get (Tab.set t k a d) k d = a := by simp [Tab.get_set]

/-- A map over a table. -/
theorem Tab.find?_map {α β : Type} (t : Tab α) (f : α → β) (k : Nat) :
    Tab.find? (Tab.map t f) k = (Tab.find? t k).map f := by
  induction t with
  | nil => rfl
  | cons p r ih =>
    obtain ⟨j, b⟩ := p
    simp only [Tab.map, Tab.find?]
    split <;> simp [*]
theorem Tab.get_map {α β : Type} (t : Tab α) (f : α → β) (k : Nat) (d : α) :
    Tab.get (Tab.map t f) k (f d) = f (Tab.get t k d) := by
  simp only [Tab.get, Tab.find?_map]
  cases Tab.find? t k <;> rfl

/-- What holds of every entry holds after one has been set to a value of which it holds. -/
theorem Tab.all_put {α : Type} (t : Tab α) (k : Nat) (a : α) (p : Nat × α → Bool) (ht : t.all p = true)
    (ha : p (k, a) = true) : List.all (Tab.put t k a) p = true := by
  induction t with
  | nil => simp [Tab.put, ha]
  | cons q r ih =>
    obtain ⟨j, b⟩ := q
    simp only [List.all_cons, Bool.and_eq_true] at ht
    simp only [Tab.put]
    split
    · simp [ha, ht.2]
    · split
      · simp [ha, ht.1, ht.2]
      · simp [ht.1, ih ht.2]
theorem Tab.all_drop {α : Type} (t : Tab α) (k : Nat) (p : Nat × α → Bool) (ht : t.all p = true) :
    List.all (Tab.drop t k) p = true := by
  induction t with
  | nil => rfl
  | cons q r ih =>
    obtain ⟨j, b⟩ := q
    simp only [List.all_cons, Bool.and_eq_true] at ht
    simp only [Tab.drop]
    split
    · exact ih ht.2
    · simp [ht.1, ih ht.2]
theorem Tab.all_map {α β : Type} (t : Tab α) (f : α → β) (p : Nat × α → Bool) (q : Nat × β → Bool)
    (h : ∀ k a, p (k, a) = true → q (k, f a) = true) (ht : t.all p = true) : List.all (Tab.map t f) q = true := by
  induction t with
  | nil => rfl
  | cons x r ih =>
    obtain ⟨j, b⟩ := x
    simp only [List.all_cons, Bool.and_eq_true] at ht
    simp [Tab.map, h j b ht.1, ih ht.2]
/-- What an entry that is found satisfies. -/
theorem Tab.all_find? {α : Type} {t : Tab α} {k : Nat} {a : α} {p : Nat × α → Bool} (ht : t.all p = true)
    (h : Tab.find? t k = some a) : p (k, a) = true := by
  induction t with
  | nil => cases h
  | cons q r ih =>
    obtain ⟨j, b⟩ := q
    simp only [List.all_cons, Bool.and_eq_true] at ht
    simp only [Tab.find?] at h
    split at h
    · subst_vars; cases h; exact ht.1
    · exact ih ht.2 h

/-! ## Rising keys -/

/-- A table with a first entry rises when every later key lies above it and the rest rises. -/
theorem Tab.rising_cons {α : Type} (j : Nat) (b : α) (r : Tab α) :
    Tab.rising ((j, b) :: r) = true ↔ (∀ p ∈ r, j < p.1) ∧ Tab.rising r = true := by
  induction r generalizing j b with
  | nil => simp [Tab.rising]
  | cons q r ih =>
    obtain ⟨i, c⟩ := q
    simp only [Tab.rising, Bool.and_eq_true, decide_eq_true_eq, List.mem_cons, forall_eq_or_imp]
    constructor
    · rintro ⟨h, hr⟩
      exact ⟨⟨h, fun p hp => Nat.lt_trans h (((ih i c).mp hr).1 p hp)⟩, hr⟩
    · rintro ⟨⟨h, -⟩, hr⟩
      exact ⟨h, hr⟩
/-- The keys of a table after one has been set. -/
theorem Tab.mem_put {α : Type} {t : Tab α} {k : Nat} {a : α} {p : Nat × α} (h : p ∈ Tab.put t k a) : p.1 = k ∨ p ∈ t := by
  induction t with
  | nil => simp [Tab.put] at h; simp [h]
  | cons q r ih =>
    obtain ⟨j, b⟩ := q
    simp only [Tab.put] at h
    split at h
    · rcases List.mem_cons.mp h with rfl | h
      · exact .inl rfl
      · exact .inr (List.mem_cons_of_mem _ h)
    · split at h
      · rcases List.mem_cons.mp h with rfl | h
        · exact .inl rfl
        · exact .inr h
      · rcases List.mem_cons.mp h with rfl | h
        · exact .inr List.mem_cons_self
        · exact (ih h).imp id (List.mem_cons_of_mem _)
theorem Tab.rising_put {α : Type} (t : Tab α) (k : Nat) (a : α) (ht : Tab.rising t = true) :
    Tab.rising (Tab.put t k a) = true := by
  induction t with
  | nil => rfl
  | cons q r ih =>
    obtain ⟨j, b⟩ := q
    have hr := (Tab.rising_cons j b r).mp ht
    simp only [Tab.put]
    split
    · subst_vars; exact (Tab.rising_cons _ _ _).mpr hr
    · split
      · refine (Tab.rising_cons _ _ _).mpr ⟨fun p hp => ?_, ht⟩
        rcases List.mem_cons.mp hp with rfl | hp
        · assumption
        · exact Nat.lt_trans ‹_› (hr.1 p hp)
      · refine (Tab.rising_cons _ _ _).mpr ⟨fun p hp => ?_, ih hr.2⟩
        rcases Tab.mem_put hp with h | h
        · omega
        · exact hr.1 p h
/-- Removing entries keeps the keys rising. -/
theorem Tab.rising_sublist {α : Type} {t u : Tab α} (h : u.Sublist t) (ht : Tab.rising t = true) : Tab.rising u = true := by
  induction h with
  | slnil => rfl
  | cons q _ ih => exact ih ((Tab.rising_cons q.1 q.2 _).mp ht).2
  | cons_cons q hs ih =>
    have hr := (Tab.rising_cons q.1 q.2 _).mp ht
    exact (Tab.rising_cons q.1 q.2 _).mpr ⟨fun p hp => hr.1 p (hs.subset hp), ih hr.2⟩
theorem Tab.drop_sublist {α : Type} (t : Tab α) (k : Nat) : (Tab.drop t k).Sublist t := by
  induction t with
  | nil => exact .slnil
  | cons q r ih =>
    obtain ⟨j, b⟩ := q
    simp only [Tab.drop]
    split
    · exact .cons _ ih
    · exact .cons_cons _ ih
theorem Tab.rising_drop {α : Type} (t : Tab α) (k : Nat) (ht : Tab.rising t = true) : Tab.rising (Tab.drop t k) = true :=
  Tab.rising_sublist (Tab.drop_sublist t k) ht

/-! ## Memory: reads after writes -/

/-- A byte read after one byte has been written. -/
theorem Memory.read_write (m : Memory) (a c : Nat) (b : Byte) :
    Memory.read (Memory.write m a b) c = if c = a then b else Memory.read m c := Tab.get_set m a c b Memory.unlisted
/-- A byte read after a run of bytes has been written: the byte of the run there, or what was there. -/
theorem Memory.read_writeBytes (m : Memory) (a c : Nat) (bs : List Byte) :
    Memory.read (Memory.writeBytes m a bs) c =
      if a ≤ c ∧ c < a + bs.length then bs.getD (c - a) 0#8 else Memory.read m c := by
  induction bs generalizing m a with
  | nil => exact (if_neg (show ¬(a ≤ c ∧ c < a + 0) by omega)).symm
  | cons b r ih =>
    simp only [Memory.writeBytes, ih, List.length_cons, Memory.read_write]
    by_cases h : c = a
    · subst h
      have h1 : ¬(c + 1 ≤ c ∧ c < c + 1 + r.length) := by omega
      rw [if_neg h1, if_pos rfl, if_pos (by omega)]
      simp
    · by_cases h1 : a + 1 ≤ c ∧ c < a + 1 + r.length
      · have h2 : a ≤ c ∧ c < a + (r.length + 1) := by omega
        have h3 : c - a = (c - (a + 1)) + 1 := by omega
        rw [if_pos h1, if_pos h2, h3]
        simp
      · have h2 : ¬(a ≤ c ∧ c < a + (r.length + 1)) := by omega
        rw [if_neg h1, if_neg h2, if_neg h]
/-- A write leaves every byte outside it alone. -/
theorem Memory.read_writeBytes_outside (m : Memory) {a c : Nat} {bs : List Byte} (h : c < a ∨ a + bs.length ≤ c) :
    Memory.read (Memory.writeBytes m a bs) c = Memory.read m c := by
  rw [Memory.read_writeBytes, if_neg (by omega)]
/-- Byte j of what has been written. -/
theorem Memory.read_writeBytes_inside (m : Memory) (a : Nat) {j : Nat} {bs : List Byte} (h : j < bs.length) :
    Memory.read (Memory.writeBytes m a bs) (a + j) = bs.getD j 0#8 := by
  rw [Memory.read_writeBytes, if_pos (by omega), Nat.add_sub_cancel_left]

/-! ## Memory: the canonical form -/

/-- The canonical form in two parts. -/
theorem Memory.wf_iff (m : Memory) :
    Memory.wf m = true ↔ Tab.rising m = true ∧ List.all m (fun c => c.2 != Memory.unlisted) = true := by
  simp [Memory.wf]
@[simp] theorem Memory.wf_nil : Memory.wf [] = true := rfl
/-- Writing a byte keeps the canonical form. -/
theorem Memory.wf_write {m : Memory} (a : Nat) (b : Byte) (h : Memory.wf m = true) : Memory.wf (Memory.write m a b) = true := by
  rw [Memory.wf_iff] at h ⊢
  unfold Memory.write Tab.set
  split
  · exact ⟨Tab.rising_drop m a h.1, Tab.all_drop m a _ h.2⟩
  · exact ⟨Tab.rising_put m a b h.1, Tab.all_put m a b _ h.2 (by simp [*])⟩
/-- Writing bytes keeps it. -/
theorem Memory.wf_writeBytes {m : Memory} (a : Nat) (bs : List Byte) (h : Memory.wf m = true) :
    Memory.wf (Memory.writeBytes m a bs) = true := by
  induction bs generalizing m a with
  | nil => exact h
  | cons b r ih => exact ih (a + 1) (Memory.wf_write a b h)
/-- Writing a number keeps it. -/
theorem Memory.wf_writeNat {m : Memory} (a n x : Nat) (h : Memory.wf m = true) : Memory.wf (Memory.writeNat m a n x) = true :=
  Memory.wf_writeBytes a _ h
/-- Emptying addresses keeps it. -/
theorem Memory.wf_filter {m : Memory} (p : Nat × Byte → Bool) (h : Memory.wf m = true) :
    Memory.wf (List.filter p m) = true := by
  rw [Memory.wf_iff] at h ⊢
  refine ⟨Tab.rising_sublist List.filter_sublist h.1, ?_⟩
  rw [List.all_eq_true] at h ⊢
  exact fun c hc => h.2 c (List.mem_filter.mp hc).1

end Sys2Proof
end

