-- ==== Sys2Proof/Laws/State.lean ====
section
/-!
SUPPORT. One lemma for each field and each update of the state, so that no proof unfolds a record update.
-/

namespace Sys2Proof.Machine

/-! ## A loom or a tenancy replaced -/

@[simp] theorem State.setLoom_cycle (s : State) (l : Nat) (x : Loom) : (s.setLoom l x).cycle = s.cycle := rfl
@[simp] theorem State.setLoom_epoch (s : State) (l : Nat) (x : Loom) : (s.setLoom l x).epoch = s.epoch := rfl
@[simp] theorem State.setLoom_deviceNumber (s : State) (l : Nat) (x : Loom) : (s.setLoom l x).deviceNumber = s.deviceNumber := rfl
@[simp] theorem State.setLoom_domain (s : State) (l : Nat) (x : Loom) : (s.setLoom l x).domain = s.domain := rfl
@[simp] theorem State.setLoom_tenancies (s : State) (l : Nat) (x : Loom) : (s.setLoom l x).tenancies = s.tenancies := rfl
@[simp] theorem State.setLoom_launches (s : State) (l : Nat) (x : Loom) : (s.setLoom l x).launches = s.launches := rfl
@[simp] theorem State.setLoom_nextLaunch (s : State) (l : Nat) (x : Loom) : (s.setLoom l x).nextLaunch = s.nextLaunch := rfl
@[simp] theorem State.setLoom_allocators (s : State) (l : Nat) (x : Loom) : (s.setLoom l x).allocators = s.allocators := rfl
@[simp] theorem State.setLoom_tier2 (s : State) (l : Nat) (x : Loom) : (s.setLoom l x).tier2 = s.tier2 := rfl
@[simp] theorem State.setLoom_tier2Poison (s : State) (l : Nat) (x : Loom) : (s.setLoom l x).tier2Poison = s.tier2Poison := rfl
@[simp] theorem State.setLoom_tier2Ecc (s : State) (l : Nat) (x : Loom) : (s.setLoom l x).tier2Ecc = s.tier2Ecc := rfl
@[simp] theorem State.setLoom_host (s : State) (l : Nat) (x : Loom) : (s.setLoom l x).host = s.host := rfl
@[simp] theorem State.setLoom_hostWrites (s : State) (l : Nat) (x : Loom) : (s.setLoom l x).hostWrites = s.hostWrites := rfl
@[simp] theorem State.setLoom_hostPoison (s : State) (l : Nat) (x : Loom) : (s.setLoom l x).hostPoison = s.hostPoison := rfl
@[simp] theorem State.setLoom_peers (s : State) (l : Nat) (x : Loom) : (s.setLoom l x).peers = s.peers := rfl
@[simp] theorem State.setLoom_peerPoison (s : State) (l : Nat) (x : Loom) : (s.setLoom l x).peerPoison = s.peerPoison := rfl
@[simp] theorem State.setLoom_lineKeys (s : State) (l : Nat) (x : Loom) : (s.setLoom l x).lineKeys = s.lineKeys := rfl
@[simp] theorem State.setLoom_farQueues (s : State) (l : Nat) (x : Loom) : (s.setLoom l x).farQueues = s.farQueues := rfl
@[simp] theorem State.setLoom_farReads (s : State) (l : Nat) (x : Loom) : (s.setLoom l x).farReads = s.farReads := rfl
@[simp] theorem State.setLoom_nextId (s : State) (l : Nat) (x : Loom) : (s.setLoom l x).nextId = s.nextId := rfl
@[simp] theorem State.setLoom_keys (s : State) (l : Nat) (x : Loom) : (s.setLoom l x).keys = s.keys := rfl
@[simp] theorem State.setLoom_boot (s : State) (l : Nat) (x : Loom) : (s.setLoom l x).boot = s.boot := rfl
@[simp] theorem State.setLoom_physFaults (s : State) (l : Nat) (x : Loom) : (s.setLoom l x).physFaults = s.physFaults := rfl
@[simp] theorem State.setLoom_physCorrected (s : State) (l : Nat) (x : Loom) : (s.setLoom l x).physCorrected = s.physCorrected := rfl
@[simp] theorem State.setLoom_membership (s : State) (l : Nat) (x : Loom) : (s.setLoom l x).membership = s.membership := rfl
@[simp] theorem State.setLoom_arrivals (s : State) (l : Nat) (x : Loom) : (s.setLoom l x).arrivals = s.arrivals := rfl
@[simp] theorem State.setLoom_pickPins (s : State) (l : Nat) (x : Loom) : (s.setLoom l x).pickPins = s.pickPins := rfl
@[simp] theorem State.setLoom_detected (s : State) (l : Nat) (x : Loom) : (s.setLoom l x).detected = s.detected := rfl
@[simp] theorem State.setLoom_ends (s : State) (l : Nat) (x : Loom) : (s.setLoom l x).ends = s.ends := rfl
@[simp] theorem State.setLoom_issue (s : State) (l : Nat) (x : Loom) : (s.setLoom l x).issue = s.issue := rfl
@[simp] theorem State.setLoom_cur (s : State) (l : Nat) (x : Loom) : (s.setLoom l x).cur = s.cur := rfl
@[simp] theorem State.setLoom_turn (s : State) (l : Nat) (x : Loom) : (s.setLoom l x).turn = s.turn := rfl
@[simp] theorem State.setLoom_free (s : State) (l : Nat) (x : Loom) : (s.setLoom l x).free = s.free := rfl

@[simp] theorem State.updLoom_cycle (s : State) (l : Nat) (f : Loom → Loom) : (s.updLoom l f).cycle = s.cycle := rfl
@[simp] theorem State.updLoom_epoch (s : State) (l : Nat) (f : Loom → Loom) : (s.updLoom l f).epoch = s.epoch := rfl
@[simp] theorem State.updLoom_deviceNumber (s : State) (l : Nat) (f : Loom → Loom) : (s.updLoom l f).deviceNumber = s.deviceNumber := rfl
@[simp] theorem State.updLoom_domain (s : State) (l : Nat) (f : Loom → Loom) : (s.updLoom l f).domain = s.domain := rfl
@[simp] theorem State.updLoom_tenancies (s : State) (l : Nat) (f : Loom → Loom) : (s.updLoom l f).tenancies = s.tenancies := rfl
@[simp] theorem State.updLoom_launches (s : State) (l : Nat) (f : Loom → Loom) : (s.updLoom l f).launches = s.launches := rfl
@[simp] theorem State.updLoom_nextLaunch (s : State) (l : Nat) (f : Loom → Loom) : (s.updLoom l f).nextLaunch = s.nextLaunch := rfl
@[simp] theorem State.updLoom_allocators (s : State) (l : Nat) (f : Loom → Loom) : (s.updLoom l f).allocators = s.allocators := rfl
@[simp] theorem State.updLoom_tier2 (s : State) (l : Nat) (f : Loom → Loom) : (s.updLoom l f).tier2 = s.tier2 := rfl
@[simp] theorem State.updLoom_tier2Poison (s : State) (l : Nat) (f : Loom → Loom) : (s.updLoom l f).tier2Poison = s.tier2Poison := rfl
@[simp] theorem State.updLoom_tier2Ecc (s : State) (l : Nat) (f : Loom → Loom) : (s.updLoom l f).tier2Ecc = s.tier2Ecc := rfl
@[simp] theorem State.updLoom_host (s : State) (l : Nat) (f : Loom → Loom) : (s.updLoom l f).host = s.host := rfl
@[simp] theorem State.updLoom_hostWrites (s : State) (l : Nat) (f : Loom → Loom) : (s.updLoom l f).hostWrites = s.hostWrites := rfl
@[simp] theorem State.updLoom_hostPoison (s : State) (l : Nat) (f : Loom → Loom) : (s.updLoom l f).hostPoison = s.hostPoison := rfl
@[simp] theorem State.updLoom_peers (s : State) (l : Nat) (f : Loom → Loom) : (s.updLoom l f).peers = s.peers := rfl
@[simp] theorem State.updLoom_peerPoison (s : State) (l : Nat) (f : Loom → Loom) : (s.updLoom l f).peerPoison = s.peerPoison := rfl
@[simp] theorem State.updLoom_lineKeys (s : State) (l : Nat) (f : Loom → Loom) : (s.updLoom l f).lineKeys = s.lineKeys := rfl
@[simp] theorem State.updLoom_farQueues (s : State) (l : Nat) (f : Loom → Loom) : (s.updLoom l f).farQueues = s.farQueues := rfl
@[simp] theorem State.updLoom_farReads (s : State) (l : Nat) (f : Loom → Loom) : (s.updLoom l f).farReads = s.farReads := rfl
@[simp] theorem State.updLoom_nextId (s : State) (l : Nat) (f : Loom → Loom) : (s.updLoom l f).nextId = s.nextId := rfl
@[simp] theorem State.updLoom_keys (s : State) (l : Nat) (f : Loom → Loom) : (s.updLoom l f).keys = s.keys := rfl
@[simp] theorem State.updLoom_boot (s : State) (l : Nat) (f : Loom → Loom) : (s.updLoom l f).boot = s.boot := rfl
@[simp] theorem State.updLoom_physFaults (s : State) (l : Nat) (f : Loom → Loom) : (s.updLoom l f).physFaults = s.physFaults := rfl
@[simp] theorem State.updLoom_physCorrected (s : State) (l : Nat) (f : Loom → Loom) : (s.updLoom l f).physCorrected = s.physCorrected := rfl
@[simp] theorem State.updLoom_membership (s : State) (l : Nat) (f : Loom → Loom) : (s.updLoom l f).membership = s.membership := rfl
@[simp] theorem State.updLoom_arrivals (s : State) (l : Nat) (f : Loom → Loom) : (s.updLoom l f).arrivals = s.arrivals := rfl
@[simp] theorem State.updLoom_pickPins (s : State) (l : Nat) (f : Loom → Loom) : (s.updLoom l f).pickPins = s.pickPins := rfl
@[simp] theorem State.updLoom_detected (s : State) (l : Nat) (f : Loom → Loom) : (s.updLoom l f).detected = s.detected := rfl
@[simp] theorem State.updLoom_ends (s : State) (l : Nat) (f : Loom → Loom) : (s.updLoom l f).ends = s.ends := rfl
@[simp] theorem State.updLoom_issue (s : State) (l : Nat) (f : Loom → Loom) : (s.updLoom l f).issue = s.issue := rfl
@[simp] theorem State.updLoom_cur (s : State) (l : Nat) (f : Loom → Loom) : (s.updLoom l f).cur = s.cur := rfl
@[simp] theorem State.updLoom_turn (s : State) (l : Nat) (f : Loom → Loom) : (s.updLoom l f).turn = s.turn := rfl
@[simp] theorem State.updLoom_free (s : State) (l : Nat) (f : Loom → Loom) : (s.updLoom l f).free = s.free := rfl

@[simp] theorem State.setTenancy_cycle (s : State) (t : Nat) (x : Tenancy) : (s.setTenancy t x).cycle = s.cycle := rfl
@[simp] theorem State.setTenancy_epoch (s : State) (t : Nat) (x : Tenancy) : (s.setTenancy t x).epoch = s.epoch := rfl
@[simp] theorem State.setTenancy_deviceNumber (s : State) (t : Nat) (x : Tenancy) : (s.setTenancy t x).deviceNumber = s.deviceNumber := rfl
@[simp] theorem State.setTenancy_domain (s : State) (t : Nat) (x : Tenancy) : (s.setTenancy t x).domain = s.domain := rfl
@[simp] theorem State.setTenancy_looms (s : State) (t : Nat) (x : Tenancy) : (s.setTenancy t x).looms = s.looms := rfl
@[simp] theorem State.setTenancy_launches (s : State) (t : Nat) (x : Tenancy) : (s.setTenancy t x).launches = s.launches := rfl
@[simp] theorem State.setTenancy_nextLaunch (s : State) (t : Nat) (x : Tenancy) : (s.setTenancy t x).nextLaunch = s.nextLaunch := rfl
@[simp] theorem State.setTenancy_allocators (s : State) (t : Nat) (x : Tenancy) : (s.setTenancy t x).allocators = s.allocators := rfl
@[simp] theorem State.setTenancy_tier2 (s : State) (t : Nat) (x : Tenancy) : (s.setTenancy t x).tier2 = s.tier2 := rfl
@[simp] theorem State.setTenancy_tier2Poison (s : State) (t : Nat) (x : Tenancy) : (s.setTenancy t x).tier2Poison = s.tier2Poison := rfl
@[simp] theorem State.setTenancy_tier2Ecc (s : State) (t : Nat) (x : Tenancy) : (s.setTenancy t x).tier2Ecc = s.tier2Ecc := rfl
@[simp] theorem State.setTenancy_host (s : State) (t : Nat) (x : Tenancy) : (s.setTenancy t x).host = s.host := rfl
@[simp] theorem State.setTenancy_hostWrites (s : State) (t : Nat) (x : Tenancy) : (s.setTenancy t x).hostWrites = s.hostWrites := rfl
@[simp] theorem State.setTenancy_hostPoison (s : State) (t : Nat) (x : Tenancy) : (s.setTenancy t x).hostPoison = s.hostPoison := rfl
@[simp] theorem State.setTenancy_peers (s : State) (t : Nat) (x : Tenancy) : (s.setTenancy t x).peers = s.peers := rfl
@[simp] theorem State.setTenancy_peerPoison (s : State) (t : Nat) (x : Tenancy) : (s.setTenancy t x).peerPoison = s.peerPoison := rfl
@[simp] theorem State.setTenancy_lineKeys (s : State) (t : Nat) (x : Tenancy) : (s.setTenancy t x).lineKeys = s.lineKeys := rfl
@[simp] theorem State.setTenancy_farQueues (s : State) (t : Nat) (x : Tenancy) : (s.setTenancy t x).farQueues = s.farQueues := rfl
@[simp] theorem State.setTenancy_farReads (s : State) (t : Nat) (x : Tenancy) : (s.setTenancy t x).farReads = s.farReads := rfl
@[simp] theorem State.setTenancy_nextId (s : State) (t : Nat) (x : Tenancy) : (s.setTenancy t x).nextId = s.nextId := rfl
@[simp] theorem State.setTenancy_keys (s : State) (t : Nat) (x : Tenancy) : (s.setTenancy t x).keys = s.keys := rfl
@[simp] theorem State.setTenancy_boot (s : State) (t : Nat) (x : Tenancy) : (s.setTenancy t x).boot = s.boot := rfl
@[simp] theorem State.setTenancy_physFaults (s : State) (t : Nat) (x : Tenancy) : (s.setTenancy t x).physFaults = s.physFaults := rfl
@[simp] theorem State.setTenancy_physCorrected (s : State) (t : Nat) (x : Tenancy) : (s.setTenancy t x).physCorrected = s.physCorrected := rfl
@[simp] theorem State.setTenancy_membership (s : State) (t : Nat) (x : Tenancy) : (s.setTenancy t x).membership = s.membership := rfl
@[simp] theorem State.setTenancy_arrivals (s : State) (t : Nat) (x : Tenancy) : (s.setTenancy t x).arrivals = s.arrivals := rfl
@[simp] theorem State.setTenancy_pickPins (s : State) (t : Nat) (x : Tenancy) : (s.setTenancy t x).pickPins = s.pickPins := rfl
@[simp] theorem State.setTenancy_detected (s : State) (t : Nat) (x : Tenancy) : (s.setTenancy t x).detected = s.detected := rfl
@[simp] theorem State.setTenancy_ends (s : State) (t : Nat) (x : Tenancy) : (s.setTenancy t x).ends = s.ends := rfl
@[simp] theorem State.setTenancy_issue (s : State) (t : Nat) (x : Tenancy) : (s.setTenancy t x).issue = s.issue := rfl
@[simp] theorem State.setTenancy_cur (s : State) (t : Nat) (x : Tenancy) : (s.setTenancy t x).cur = s.cur := rfl
@[simp] theorem State.setTenancy_turn (s : State) (t : Nat) (x : Tenancy) : (s.setTenancy t x).turn = s.turn := rfl
@[simp] theorem State.setTenancy_free (s : State) (t : Nat) (x : Tenancy) : (s.setTenancy t x).free = s.free := rfl

@[simp] theorem State.updTenancy_cycle (s : State) (t : Nat) (f : Tenancy → Tenancy) : (s.updTenancy t f).cycle = s.cycle := rfl
@[simp] theorem State.updTenancy_epoch (s : State) (t : Nat) (f : Tenancy → Tenancy) : (s.updTenancy t f).epoch = s.epoch := rfl
@[simp] theorem State.updTenancy_deviceNumber (s : State) (t : Nat) (f : Tenancy → Tenancy) : (s.updTenancy t f).deviceNumber = s.deviceNumber := rfl
@[simp] theorem State.updTenancy_domain (s : State) (t : Nat) (f : Tenancy → Tenancy) : (s.updTenancy t f).domain = s.domain := rfl
@[simp] theorem State.updTenancy_looms (s : State) (t : Nat) (f : Tenancy → Tenancy) : (s.updTenancy t f).looms = s.looms := rfl
@[simp] theorem State.updTenancy_launches (s : State) (t : Nat) (f : Tenancy → Tenancy) : (s.updTenancy t f).launches = s.launches := rfl
@[simp] theorem State.updTenancy_nextLaunch (s : State) (t : Nat) (f : Tenancy → Tenancy) : (s.updTenancy t f).nextLaunch = s.nextLaunch := rfl
@[simp] theorem State.updTenancy_allocators (s : State) (t : Nat) (f : Tenancy → Tenancy) : (s.updTenancy t f).allocators = s.allocators := rfl
@[simp] theorem State.updTenancy_tier2 (s : State) (t : Nat) (f : Tenancy → Tenancy) : (s.updTenancy t f).tier2 = s.tier2 := rfl
@[simp] theorem State.updTenancy_tier2Poison (s : State) (t : Nat) (f : Tenancy → Tenancy) : (s.updTenancy t f).tier2Poison = s.tier2Poison := rfl
@[simp] theorem State.updTenancy_tier2Ecc (s : State) (t : Nat) (f : Tenancy → Tenancy) : (s.updTenancy t f).tier2Ecc = s.tier2Ecc := rfl
@[simp] theorem State.updTenancy_host (s : State) (t : Nat) (f : Tenancy → Tenancy) : (s.updTenancy t f).host = s.host := rfl
@[simp] theorem State.updTenancy_hostWrites (s : State) (t : Nat) (f : Tenancy → Tenancy) : (s.updTenancy t f).hostWrites = s.hostWrites := rfl
@[simp] theorem State.updTenancy_hostPoison (s : State) (t : Nat) (f : Tenancy → Tenancy) : (s.updTenancy t f).hostPoison = s.hostPoison := rfl
@[simp] theorem State.updTenancy_peers (s : State) (t : Nat) (f : Tenancy → Tenancy) : (s.updTenancy t f).peers = s.peers := rfl
@[simp] theorem State.updTenancy_peerPoison (s : State) (t : Nat) (f : Tenancy → Tenancy) : (s.updTenancy t f).peerPoison = s.peerPoison := rfl
@[simp] theorem State.updTenancy_lineKeys (s : State) (t : Nat) (f : Tenancy → Tenancy) : (s.updTenancy t f).lineKeys = s.lineKeys := rfl
@[simp] theorem State.updTenancy_farQueues (s : State) (t : Nat) (f : Tenancy → Tenancy) : (s.updTenancy t f).farQueues = s.farQueues := rfl
@[simp] theorem State.updTenancy_farReads (s : State) (t : Nat) (f : Tenancy → Tenancy) : (s.updTenancy t f).farReads = s.farReads := rfl
@[simp] theorem State.updTenancy_nextId (s : State) (t : Nat) (f : Tenancy → Tenancy) : (s.updTenancy t f).nextId = s.nextId := rfl
@[simp] theorem State.updTenancy_keys (s : State) (t : Nat) (f : Tenancy → Tenancy) : (s.updTenancy t f).keys = s.keys := rfl
@[simp] theorem State.updTenancy_boot (s : State) (t : Nat) (f : Tenancy → Tenancy) : (s.updTenancy t f).boot = s.boot := rfl
@[simp] theorem State.updTenancy_physFaults (s : State) (t : Nat) (f : Tenancy → Tenancy) : (s.updTenancy t f).physFaults = s.physFaults := rfl
@[simp] theorem State.updTenancy_physCorrected (s : State) (t : Nat) (f : Tenancy → Tenancy) : (s.updTenancy t f).physCorrected = s.physCorrected := rfl
@[simp] theorem State.updTenancy_membership (s : State) (t : Nat) (f : Tenancy → Tenancy) : (s.updTenancy t f).membership = s.membership := rfl
@[simp] theorem State.updTenancy_arrivals (s : State) (t : Nat) (f : Tenancy → Tenancy) : (s.updTenancy t f).arrivals = s.arrivals := rfl
@[simp] theorem State.updTenancy_pickPins (s : State) (t : Nat) (f : Tenancy → Tenancy) : (s.updTenancy t f).pickPins = s.pickPins := rfl
@[simp] theorem State.updTenancy_detected (s : State) (t : Nat) (f : Tenancy → Tenancy) : (s.updTenancy t f).detected = s.detected := rfl
@[simp] theorem State.updTenancy_ends (s : State) (t : Nat) (f : Tenancy → Tenancy) : (s.updTenancy t f).ends = s.ends := rfl
@[simp] theorem State.updTenancy_issue (s : State) (t : Nat) (f : Tenancy → Tenancy) : (s.updTenancy t f).issue = s.issue := rfl
@[simp] theorem State.updTenancy_cur (s : State) (t : Nat) (f : Tenancy → Tenancy) : (s.updTenancy t f).cur = s.cur := rfl
@[simp] theorem State.updTenancy_turn (s : State) (t : Nat) (f : Tenancy → Tenancy) : (s.updTenancy t f).turn = s.turn := rfl
@[simp] theorem State.updTenancy_free (s : State) (t : Nat) (f : Tenancy → Tenancy) : (s.updTenancy t f).free = s.free := rfl

@[simp] theorem State.updSeq_cycle (s : State) (l q : Nat) (f : Seq → Seq) : (s.updSeq l q f).cycle = s.cycle := rfl
@[simp] theorem State.updSeq_epoch (s : State) (l q : Nat) (f : Seq → Seq) : (s.updSeq l q f).epoch = s.epoch := rfl
@[simp] theorem State.updSeq_deviceNumber (s : State) (l q : Nat) (f : Seq → Seq) : (s.updSeq l q f).deviceNumber = s.deviceNumber := rfl
@[simp] theorem State.updSeq_domain (s : State) (l q : Nat) (f : Seq → Seq) : (s.updSeq l q f).domain = s.domain := rfl
@[simp] theorem State.updSeq_tenancies (s : State) (l q : Nat) (f : Seq → Seq) : (s.updSeq l q f).tenancies = s.tenancies := rfl
@[simp] theorem State.updSeq_launches (s : State) (l q : Nat) (f : Seq → Seq) : (s.updSeq l q f).launches = s.launches := rfl
@[simp] theorem State.updSeq_nextLaunch (s : State) (l q : Nat) (f : Seq → Seq) : (s.updSeq l q f).nextLaunch = s.nextLaunch := rfl
@[simp] theorem State.updSeq_allocators (s : State) (l q : Nat) (f : Seq → Seq) : (s.updSeq l q f).allocators = s.allocators := rfl
@[simp] theorem State.updSeq_tier2 (s : State) (l q : Nat) (f : Seq → Seq) : (s.updSeq l q f).tier2 = s.tier2 := rfl
@[simp] theorem State.updSeq_tier2Poison (s : State) (l q : Nat) (f : Seq → Seq) : (s.updSeq l q f).tier2Poison = s.tier2Poison := rfl
@[simp] theorem State.updSeq_tier2Ecc (s : State) (l q : Nat) (f : Seq → Seq) : (s.updSeq l q f).tier2Ecc = s.tier2Ecc := rfl
@[simp] theorem State.updSeq_host (s : State) (l q : Nat) (f : Seq → Seq) : (s.updSeq l q f).host = s.host := rfl
@[simp] theorem State.updSeq_hostWrites (s : State) (l q : Nat) (f : Seq → Seq) : (s.updSeq l q f).hostWrites = s.hostWrites := rfl
@[simp] theorem State.updSeq_hostPoison (s : State) (l q : Nat) (f : Seq → Seq) : (s.updSeq l q f).hostPoison = s.hostPoison := rfl
@[simp] theorem State.updSeq_peers (s : State) (l q : Nat) (f : Seq → Seq) : (s.updSeq l q f).peers = s.peers := rfl
@[simp] theorem State.updSeq_peerPoison (s : State) (l q : Nat) (f : Seq → Seq) : (s.updSeq l q f).peerPoison = s.peerPoison := rfl
@[simp] theorem State.updSeq_lineKeys (s : State) (l q : Nat) (f : Seq → Seq) : (s.updSeq l q f).lineKeys = s.lineKeys := rfl
@[simp] theorem State.updSeq_farQueues (s : State) (l q : Nat) (f : Seq → Seq) : (s.updSeq l q f).farQueues = s.farQueues := rfl
@[simp] theorem State.updSeq_farReads (s : State) (l q : Nat) (f : Seq → Seq) : (s.updSeq l q f).farReads = s.farReads := rfl
@[simp] theorem State.updSeq_nextId (s : State) (l q : Nat) (f : Seq → Seq) : (s.updSeq l q f).nextId = s.nextId := rfl
@[simp] theorem State.updSeq_keys (s : State) (l q : Nat) (f : Seq → Seq) : (s.updSeq l q f).keys = s.keys := rfl
@[simp] theorem State.updSeq_boot (s : State) (l q : Nat) (f : Seq → Seq) : (s.updSeq l q f).boot = s.boot := rfl
@[simp] theorem State.updSeq_physFaults (s : State) (l q : Nat) (f : Seq → Seq) : (s.updSeq l q f).physFaults = s.physFaults := rfl
@[simp] theorem State.updSeq_physCorrected (s : State) (l q : Nat) (f : Seq → Seq) : (s.updSeq l q f).physCorrected = s.physCorrected := rfl
@[simp] theorem State.updSeq_membership (s : State) (l q : Nat) (f : Seq → Seq) : (s.updSeq l q f).membership = s.membership := rfl
@[simp] theorem State.updSeq_arrivals (s : State) (l q : Nat) (f : Seq → Seq) : (s.updSeq l q f).arrivals = s.arrivals := rfl
@[simp] theorem State.updSeq_pickPins (s : State) (l q : Nat) (f : Seq → Seq) : (s.updSeq l q f).pickPins = s.pickPins := rfl
@[simp] theorem State.updSeq_detected (s : State) (l q : Nat) (f : Seq → Seq) : (s.updSeq l q f).detected = s.detected := rfl
@[simp] theorem State.updSeq_ends (s : State) (l q : Nat) (f : Seq → Seq) : (s.updSeq l q f).ends = s.ends := rfl
@[simp] theorem State.updSeq_issue (s : State) (l q : Nat) (f : Seq → Seq) : (s.updSeq l q f).issue = s.issue := rfl
@[simp] theorem State.updSeq_cur (s : State) (l q : Nat) (f : Seq → Seq) : (s.updSeq l q f).cur = s.cur := rfl
@[simp] theorem State.updSeq_turn (s : State) (l q : Nat) (f : Seq → Seq) : (s.updSeq l q f).turn = s.turn := rfl
@[simp] theorem State.updSeq_free (s : State) (l q : Nat) (f : Seq → Seq) : (s.updSeq l q f).free = s.free := rfl

/-- Any loom after one has been changed. -/
theorem State.loom_updLoom (s : State) (l k : Nat) (f : Loom → Loom) :
    (s.updLoom l f).loom k = if k = l then f (s.loom l) else s.loom k := Tab.get_put _ _ _ _ _
@[simp] theorem State.loom_updLoom_self (s : State) (l : Nat) (f : Loom → Loom) : (s.updLoom l f).loom l = f (s.loom l) := by
  simp [State.loom_updLoom]
theorem State.loom_updLoom_ne (s : State) {l k : Nat} (f : Loom → Loom) (h : k ≠ l) : (s.updLoom l f).loom k = s.loom k := by
  simp [State.loom_updLoom, h]
/-- Any tenancy after one has been changed. -/
theorem State.tenancy_updTenancy (s : State) (t k : Nat) (f : Tenancy → Tenancy) :
    (s.updTenancy t f).tenancy k = if k = t then f (s.tenancy t) else s.tenancy k := Tab.get_put _ _ _ _ _
@[simp] theorem State.tenancy_updTenancy_self (s : State) (t : Nat) (f : Tenancy → Tenancy) :
    (s.updTenancy t f).tenancy t = f (s.tenancy t) := by simp [State.tenancy_updTenancy]
@[simp] theorem State.loom_updTenancy (s : State) (t l : Nat) (f : Tenancy → Tenancy) :
    (s.updTenancy t f).loom l = s.loom l := rfl
@[simp] theorem State.tenancy_updLoom (s : State) (l t : Nat) (f : Loom → Loom) :
    (s.updLoom l f).tenancy t = s.tenancy t := rfl
/-- Any sequencer of a loom after one has been replaced. -/
theorem Loom.seq_setSeq (x : Loom) (q k : Nat) (y : Seq) : (x.setSeq q y).seq k = if k = q then y else x.seq k :=
  Tab.get_put _ _ _ _ _
@[simp] theorem Loom.seq_setSeq_self (x : Loom) (q : Nat) (y : Seq) : (x.setSeq q y).seq q = y := by
  simp [Loom.seq_setSeq]
/-- Any sequencer of the device after one has been changed. -/
theorem State.seq_updSeq (s : State) (l q k j : Nat) (f : Seq → Seq) :
    (s.updSeq l q f).seq k j = if k = l ∧ j = q then f (s.seq l q) else s.seq k j := by
  simp only [State.seq, State.updSeq, State.loom_updLoom]
  by_cases h : k = l
  · subst h
    simp [Loom.seq_setSeq]
  · simp [h]

@[simp] theorem Loom.setSeq_resetCycle (x : Loom) (q : Nat) (y : Seq) : (x.setSeq q y).resetCycle = x.resetCycle := rfl
@[simp] theorem Loom.setSeq_vxslip (x : Loom) (q : Nat) (y : Seq) : (x.setSeq q y).vxslip = x.vxslip := rfl
@[simp] theorem Loom.setSeq_runs (x : Loom) (q : Nat) (y : Seq) : (x.setSeq q y).runs = x.runs := rfl
@[simp] theorem Loom.setSeq_acc (x : Loom) (q : Nat) (y : Seq) : (x.setSeq q y).acc = x.acc := rfl
@[simp] theorem Loom.setSeq_scaleA (x : Loom) (q : Nat) (y : Seq) : (x.setSeq q y).scaleA = x.scaleA := rfl
@[simp] theorem Loom.setSeq_scaleB (x : Loom) (q : Nat) (y : Seq) : (x.setSeq q y).scaleB = x.scaleB := rfl
@[simp] theorem Loom.setSeq_scaleConst (x : Loom) (q : Nat) (y : Seq) : (x.setSeq q y).scaleConst = x.scaleConst := rfl
@[simp] theorem Loom.setSeq_scaleZ (x : Loom) (q : Nat) (y : Seq) : (x.setSeq q y).scaleZ = x.scaleZ := rfl
@[simp] theorem Loom.setSeq_scaleLoads (x : Loom) (q : Nat) (y : Seq) : (x.setSeq q y).scaleLoads = x.scaleLoads := rfl
@[simp] theorem Loom.setSeq_portDue (x : Loom) (q : Nat) (y : Seq) : (x.setSeq q y).portDue = x.portDue := rfl
@[simp] theorem Loom.setSeq_cq (x : Loom) (q : Nat) (y : Seq) : (x.setSeq q y).cq = x.cq := rfl
@[simp] theorem Loom.setSeq_queues (x : Loom) (q : Nat) (y : Seq) : (x.setSeq q y).queues = x.queues := rfl
@[simp] theorem Loom.setSeq_landing (x : Loom) (q : Nat) (y : Seq) : (x.setSeq q y).landing = x.landing := rfl
@[simp] theorem Loom.setSeq_landingWaits (x : Loom) (q : Nat) (y : Seq) : (x.setSeq q y).landingWaits = x.landingWaits := rfl
@[simp] theorem Loom.setSeq_arriving (x : Loom) (q : Nat) (y : Seq) : (x.setSeq q y).arriving = x.arriving := rfl
@[simp] theorem Loom.setSeq_transfer (x : Loom) (q : Nat) (y : Seq) : (x.setSeq q y).transfer = x.transfer := rfl
@[simp] theorem Loom.setSeq_waiters (x : Loom) (q : Nat) (y : Seq) : (x.setSeq q y).waiters = x.waiters := rfl
@[simp] theorem Loom.setSeq_vault (x : Loom) (q : Nat) (y : Seq) : (x.setSeq q y).vault = x.vault := rfl
@[simp] theorem Loom.setSeq_vaultPoison (x : Loom) (q : Nat) (y : Seq) : (x.setSeq q y).vaultPoison = x.vaultPoison := rfl
@[simp] theorem Loom.setSeq_unscrubbed (x : Loom) (q : Nat) (y : Seq) : (x.setSeq q y).unscrubbed = x.unscrubbed := rfl
@[simp] theorem Loom.setSeq_written (x : Loom) (q : Nat) (y : Seq) : (x.setSeq q y).written = x.written := rfl
@[simp] theorem Loom.setSeq_lastWrites (x : Loom) (q : Nat) (y : Seq) : (x.setSeq q y).lastWrites = x.lastWrites := rfl
@[simp] theorem Loom.setSeq_ecc (x : Loom) (q : Nat) (y : Seq) : (x.setSeq q y).ecc = x.ecc := rfl
@[simp] theorem Loom.setSeq_banks (x : Loom) (q : Nat) (y : Seq) : (x.setSeq q y).banks = x.banks := rfl
@[simp] theorem Loom.setSeq_refresh (x : Loom) (q : Nat) (y : Seq) : (x.setSeq q y).refresh = x.refresh := rfl
@[simp] theorem Loom.setSeq_temperature (x : Loom) (q : Nat) (y : Seq) : (x.setSeq q y).temperature = x.temperature := rfl
@[simp] theorem Loom.setSeq_shared (x : Loom) (q : Nat) (y : Seq) : (x.setSeq q y).shared = x.shared := rfl
@[simp] theorem Loom.setSeq_remap1 (x : Loom) (q : Nat) (y : Seq) : (x.setSeq q y).remap1 = x.remap1 := rfl
@[simp] theorem Loom.setSeq_remap2 (x : Loom) (q : Nat) (y : Seq) : (x.setSeq q y).remap2 = x.remap2 := rfl
@[simp] theorem Loom.setSeq_shuttleReleased (x : Loom) (q : Nat) (y : Seq) : (x.setSeq q y).shuttleReleased = x.shuttleReleased := rfl
@[simp] theorem Loom.setSeq_trace (x : Loom) (q : Nat) (y : Seq) : (x.setSeq q y).trace = x.trace := rfl
@[simp] theorem Loom.setSeq_traceCounts (x : Loom) (q : Nat) (y : Seq) : (x.setSeq q y).traceCounts = x.traceCounts := rfl
@[simp] theorem Loom.setSeq_debug (x : Loom) (q : Nat) (y : Seq) : (x.setSeq q y).debug = x.debug := rfl
@[simp] theorem Loom.setSeq_compWrites (x : Loom) (q : Nat) (y : Seq) : (x.setSeq q y).compWrites = x.compWrites := rfl
@[simp] theorem Loom.setSeq_weights (x : Loom) (q : Nat) (y : Seq) : (x.setSeq q y).weights = x.weights := rfl
@[simp] theorem Loom.setSeq_holder (x : Loom) (q : Nat) (y : Seq) : (x.setSeq q y).holder = x.holder := rfl
@[simp] theorem Loom.setSeq_lastHolder (x : Loom) (q : Nat) (y : Seq) : (x.setSeq q y).lastHolder = x.lastHolder := rfl
@[simp] theorem Loom.setSeq_quantumEnds (x : Loom) (q : Nat) (y : Seq) : (x.setSeq q y).quantumEnds = x.quantumEnds := rfl
@[simp] theorem Loom.setSeq_switching (x : Loom) (q : Nat) (y : Seq) : (x.setSeq q y).switching = x.switching := rfl
@[simp] theorem Loom.setSeq_saved (x : Loom) (q : Nat) (y : Seq) : (x.setSeq q y).saved = x.saved := rfl
@[simp] theorem Loom.setSeq_contained (x : Loom) (q : Nat) (y : Seq) : (x.setSeq q y).contained = x.contained := rfl
@[simp] theorem Loom.setSeq_quarantined (x : Loom) (q : Nat) (y : Seq) : (x.setSeq q y).quarantined = x.quarantined := rfl
@[simp] theorem Loom.setSeq_offline (x : Loom) (q : Nat) (y : Seq) : (x.setSeq q y).offline = x.offline := rfl
@[simp] theorem Loom.setSeq_containments (x : Loom) (q : Nat) (y : Seq) : (x.setSeq q y).containments = x.containments := rfl
@[simp] theorem Loom.setSeq_resetEnds (x : Loom) (q : Nat) (y : Seq) : (x.setSeq q y).resetEnds = x.resetEnds := rfl
@[simp] theorem Loom.setSeq_scrubEnds (x : Loom) (q : Nat) (y : Seq) : (x.setSeq q y).scrubEnds = x.scrubEnds := rfl
@[simp] theorem Loom.setSeq_counters (x : Loom) (q : Nat) (y : Seq) : (x.setSeq q y).counters = x.counters := rfl
@[simp] theorem Loom.setSeq_counting (x : Loom) (q : Nat) (y : Seq) : (x.setSeq q y).counting = x.counting := rfl

/-! ## The current sequencer changed -/

/-- The current sequencer after it has been changed. -/
@[simp] theorem State.me_updMe (s : State) (f : Seq → Seq) : (s.updMe f).me = f s.me := by
  cases h : s.cur.stream <;> simp [State.updMe, State.me, h, State.seq_updSeq]

@[simp] theorem State.updMe_cycle (s : State) (g : Seq → Seq) : (s.updMe g).cycle = s.cycle := by
  unfold State.updMe; split <;> rfl
@[simp] theorem State.updMe_epoch (s : State) (g : Seq → Seq) : (s.updMe g).epoch = s.epoch := by
  unfold State.updMe; split <;> rfl
@[simp] theorem State.updMe_deviceNumber (s : State) (g : Seq → Seq) : (s.updMe g).deviceNumber = s.deviceNumber := by
  unfold State.updMe; split <;> rfl
@[simp] theorem State.updMe_domain (s : State) (g : Seq → Seq) : (s.updMe g).domain = s.domain := by
  unfold State.updMe; split <;> rfl
@[simp] theorem State.updMe_launches (s : State) (g : Seq → Seq) : (s.updMe g).launches = s.launches := by
  unfold State.updMe; split <;> rfl
@[simp] theorem State.updMe_nextLaunch (s : State) (g : Seq → Seq) : (s.updMe g).nextLaunch = s.nextLaunch := by
  unfold State.updMe; split <;> rfl
@[simp] theorem State.updMe_allocators (s : State) (g : Seq → Seq) : (s.updMe g).allocators = s.allocators := by
  unfold State.updMe; split <;> rfl
@[simp] theorem State.updMe_tier2 (s : State) (g : Seq → Seq) : (s.updMe g).tier2 = s.tier2 := by
  unfold State.updMe; split <;> rfl
@[simp] theorem State.updMe_tier2Poison (s : State) (g : Seq → Seq) : (s.updMe g).tier2Poison = s.tier2Poison := by
  unfold State.updMe; split <;> rfl
@[simp] theorem State.updMe_tier2Ecc (s : State) (g : Seq → Seq) : (s.updMe g).tier2Ecc = s.tier2Ecc := by
  unfold State.updMe; split <;> rfl
@[simp] theorem State.updMe_host (s : State) (g : Seq → Seq) : (s.updMe g).host = s.host := by
  unfold State.updMe; split <;> rfl
@[simp] theorem State.updMe_hostWrites (s : State) (g : Seq → Seq) : (s.updMe g).hostWrites = s.hostWrites := by
  unfold State.updMe; split <;> rfl
@[simp] theorem State.updMe_hostPoison (s : State) (g : Seq → Seq) : (s.updMe g).hostPoison = s.hostPoison := by
  unfold State.updMe; split <;> rfl
@[simp] theorem State.updMe_peers (s : State) (g : Seq → Seq) : (s.updMe g).peers = s.peers := by
  unfold State.updMe; split <;> rfl
@[simp] theorem State.updMe_peerPoison (s : State) (g : Seq → Seq) : (s.updMe g).peerPoison = s.peerPoison := by
  unfold State.updMe; split <;> rfl
@[simp] theorem State.updMe_lineKeys (s : State) (g : Seq → Seq) : (s.updMe g).lineKeys = s.lineKeys := by
  unfold State.updMe; split <;> rfl
@[simp] theorem State.updMe_farQueues (s : State) (g : Seq → Seq) : (s.updMe g).farQueues = s.farQueues := by
  unfold State.updMe; split <;> rfl
@[simp] theorem State.updMe_farReads (s : State) (g : Seq → Seq) : (s.updMe g).farReads = s.farReads := by
  unfold State.updMe; split <;> rfl
@[simp] theorem State.updMe_nextId (s : State) (g : Seq → Seq) : (s.updMe g).nextId = s.nextId := by
  unfold State.updMe; split <;> rfl
@[simp] theorem State.updMe_keys (s : State) (g : Seq → Seq) : (s.updMe g).keys = s.keys := by
  unfold State.updMe; split <;> rfl
@[simp] theorem State.updMe_boot (s : State) (g : Seq → Seq) : (s.updMe g).boot = s.boot := by
  unfold State.updMe; split <;> rfl
@[simp] theorem State.updMe_physFaults (s : State) (g : Seq → Seq) : (s.updMe g).physFaults = s.physFaults := by
  unfold State.updMe; split <;> rfl
@[simp] theorem State.updMe_physCorrected (s : State) (g : Seq → Seq) : (s.updMe g).physCorrected = s.physCorrected := by
  unfold State.updMe; split <;> rfl
@[simp] theorem State.updMe_membership (s : State) (g : Seq → Seq) : (s.updMe g).membership = s.membership := by
  unfold State.updMe; split <;> rfl
@[simp] theorem State.updMe_arrivals (s : State) (g : Seq → Seq) : (s.updMe g).arrivals = s.arrivals := by
  unfold State.updMe; split <;> rfl
@[simp] theorem State.updMe_pickPins (s : State) (g : Seq → Seq) : (s.updMe g).pickPins = s.pickPins := by
  unfold State.updMe; split <;> rfl
@[simp] theorem State.updMe_detected (s : State) (g : Seq → Seq) : (s.updMe g).detected = s.detected := by
  unfold State.updMe; split <;> rfl
@[simp] theorem State.updMe_ends (s : State) (g : Seq → Seq) : (s.updMe g).ends = s.ends := by
  unfold State.updMe; split <;> rfl
@[simp] theorem State.updMe_issue (s : State) (g : Seq → Seq) : (s.updMe g).issue = s.issue := by
  unfold State.updMe; split <;> rfl
@[simp] theorem State.updMe_cur (s : State) (g : Seq → Seq) : (s.updMe g).cur = s.cur := by
  unfold State.updMe; split <;> rfl
@[simp] theorem State.updMe_turn (s : State) (g : Seq → Seq) : (s.updMe g).turn = s.turn := by
  unfold State.updMe; split <;> rfl
@[simp] theorem State.updMe_free (s : State) (g : Seq → Seq) : (s.updMe g).free = s.free := by
  unfold State.updMe; split <;> rfl
/-- A loom after the current sequencer has been changed: its sequencers alone may differ. -/
theorem State.loom_updMe (s : State) (f : Seq → Seq) (l : Nat) :
    (s.updMe f).loom l = { s.loom l with seqs := ((s.updMe f).loom l).seqs } := by
  unfold State.updMe
  split
  · rfl
  · simp only [State.updSeq, State.loom_updLoom]
    split
    · subst_vars; rfl
    · rfl

@[simp] theorem State.loom_updMe_resetCycle (s : State) (g : Seq → Seq) (l : Nat) : ((s.updMe g).loom l).resetCycle = (s.loom l).resetCycle := by
  rw [State.loom_updMe]
@[simp] theorem State.loom_updMe_vxslip (s : State) (g : Seq → Seq) (l : Nat) : ((s.updMe g).loom l).vxslip = (s.loom l).vxslip := by
  rw [State.loom_updMe]
@[simp] theorem State.loom_updMe_runs (s : State) (g : Seq → Seq) (l : Nat) : ((s.updMe g).loom l).runs = (s.loom l).runs := by
  rw [State.loom_updMe]
@[simp] theorem State.loom_updMe_acc (s : State) (g : Seq → Seq) (l : Nat) : ((s.updMe g).loom l).acc = (s.loom l).acc := by
  rw [State.loom_updMe]
@[simp] theorem State.loom_updMe_scaleA (s : State) (g : Seq → Seq) (l : Nat) : ((s.updMe g).loom l).scaleA = (s.loom l).scaleA := by
  rw [State.loom_updMe]
@[simp] theorem State.loom_updMe_scaleB (s : State) (g : Seq → Seq) (l : Nat) : ((s.updMe g).loom l).scaleB = (s.loom l).scaleB := by
  rw [State.loom_updMe]
@[simp] theorem State.loom_updMe_scaleConst (s : State) (g : Seq → Seq) (l : Nat) : ((s.updMe g).loom l).scaleConst = (s.loom l).scaleConst := by
  rw [State.loom_updMe]
@[simp] theorem State.loom_updMe_scaleZ (s : State) (g : Seq → Seq) (l : Nat) : ((s.updMe g).loom l).scaleZ = (s.loom l).scaleZ := by
  rw [State.loom_updMe]
@[simp] theorem State.loom_updMe_scaleLoads (s : State) (g : Seq → Seq) (l : Nat) : ((s.updMe g).loom l).scaleLoads = (s.loom l).scaleLoads := by
  rw [State.loom_updMe]
@[simp] theorem State.loom_updMe_portDue (s : State) (g : Seq → Seq) (l : Nat) : ((s.updMe g).loom l).portDue = (s.loom l).portDue := by
  rw [State.loom_updMe]
@[simp] theorem State.loom_updMe_cq (s : State) (g : Seq → Seq) (l : Nat) : ((s.updMe g).loom l).cq = (s.loom l).cq := by
  rw [State.loom_updMe]
@[simp] theorem State.loom_updMe_queues (s : State) (g : Seq → Seq) (l : Nat) : ((s.updMe g).loom l).queues = (s.loom l).queues := by
  rw [State.loom_updMe]
@[simp] theorem State.loom_updMe_landing (s : State) (g : Seq → Seq) (l : Nat) : ((s.updMe g).loom l).landing = (s.loom l).landing := by
  rw [State.loom_updMe]
@[simp] theorem State.loom_updMe_landingWaits (s : State) (g : Seq → Seq) (l : Nat) : ((s.updMe g).loom l).landingWaits = (s.loom l).landingWaits := by
  rw [State.loom_updMe]
@[simp] theorem State.loom_updMe_arriving (s : State) (g : Seq → Seq) (l : Nat) : ((s.updMe g).loom l).arriving = (s.loom l).arriving := by
  rw [State.loom_updMe]
@[simp] theorem State.loom_updMe_transfer (s : State) (g : Seq → Seq) (l : Nat) : ((s.updMe g).loom l).transfer = (s.loom l).transfer := by
  rw [State.loom_updMe]
@[simp] theorem State.loom_updMe_waiters (s : State) (g : Seq → Seq) (l : Nat) : ((s.updMe g).loom l).waiters = (s.loom l).waiters := by
  rw [State.loom_updMe]
@[simp] theorem State.loom_updMe_vault (s : State) (g : Seq → Seq) (l : Nat) : ((s.updMe g).loom l).vault = (s.loom l).vault := by
  rw [State.loom_updMe]
@[simp] theorem State.loom_updMe_vaultPoison (s : State) (g : Seq → Seq) (l : Nat) : ((s.updMe g).loom l).vaultPoison = (s.loom l).vaultPoison := by
  rw [State.loom_updMe]
@[simp] theorem State.loom_updMe_unscrubbed (s : State) (g : Seq → Seq) (l : Nat) : ((s.updMe g).loom l).unscrubbed = (s.loom l).unscrubbed := by
  rw [State.loom_updMe]
@[simp] theorem State.loom_updMe_written (s : State) (g : Seq → Seq) (l : Nat) : ((s.updMe g).loom l).written = (s.loom l).written := by
  rw [State.loom_updMe]
@[simp] theorem State.loom_updMe_lastWrites (s : State) (g : Seq → Seq) (l : Nat) : ((s.updMe g).loom l).lastWrites = (s.loom l).lastWrites := by
  rw [State.loom_updMe]
@[simp] theorem State.loom_updMe_ecc (s : State) (g : Seq → Seq) (l : Nat) : ((s.updMe g).loom l).ecc = (s.loom l).ecc := by
  rw [State.loom_updMe]
@[simp] theorem State.loom_updMe_banks (s : State) (g : Seq → Seq) (l : Nat) : ((s.updMe g).loom l).banks = (s.loom l).banks := by
  rw [State.loom_updMe]
@[simp] theorem State.loom_updMe_refresh (s : State) (g : Seq → Seq) (l : Nat) : ((s.updMe g).loom l).refresh = (s.loom l).refresh := by
  rw [State.loom_updMe]
@[simp] theorem State.loom_updMe_temperature (s : State) (g : Seq → Seq) (l : Nat) : ((s.updMe g).loom l).temperature = (s.loom l).temperature := by
  rw [State.loom_updMe]
@[simp] theorem State.loom_updMe_shared (s : State) (g : Seq → Seq) (l : Nat) : ((s.updMe g).loom l).shared = (s.loom l).shared := by
  rw [State.loom_updMe]
@[simp] theorem State.loom_updMe_remap1 (s : State) (g : Seq → Seq) (l : Nat) : ((s.updMe g).loom l).remap1 = (s.loom l).remap1 := by
  rw [State.loom_updMe]
@[simp] theorem State.loom_updMe_remap2 (s : State) (g : Seq → Seq) (l : Nat) : ((s.updMe g).loom l).remap2 = (s.loom l).remap2 := by
  rw [State.loom_updMe]
@[simp] theorem State.loom_updMe_shuttleReleased (s : State) (g : Seq → Seq) (l : Nat) : ((s.updMe g).loom l).shuttleReleased = (s.loom l).shuttleReleased := by
  rw [State.loom_updMe]
@[simp] theorem State.loom_updMe_trace (s : State) (g : Seq → Seq) (l : Nat) : ((s.updMe g).loom l).trace = (s.loom l).trace := by
  rw [State.loom_updMe]
@[simp] theorem State.loom_updMe_traceCounts (s : State) (g : Seq → Seq) (l : Nat) : ((s.updMe g).loom l).traceCounts = (s.loom l).traceCounts := by
  rw [State.loom_updMe]
@[simp] theorem State.loom_updMe_debug (s : State) (g : Seq → Seq) (l : Nat) : ((s.updMe g).loom l).debug = (s.loom l).debug := by
  rw [State.loom_updMe]
@[simp] theorem State.loom_updMe_compWrites (s : State) (g : Seq → Seq) (l : Nat) : ((s.updMe g).loom l).compWrites = (s.loom l).compWrites := by
  rw [State.loom_updMe]
@[simp] theorem State.loom_updMe_weights (s : State) (g : Seq → Seq) (l : Nat) : ((s.updMe g).loom l).weights = (s.loom l).weights := by
  rw [State.loom_updMe]
@[simp] theorem State.loom_updMe_holder (s : State) (g : Seq → Seq) (l : Nat) : ((s.updMe g).loom l).holder = (s.loom l).holder := by
  rw [State.loom_updMe]
@[simp] theorem State.loom_updMe_lastHolder (s : State) (g : Seq → Seq) (l : Nat) : ((s.updMe g).loom l).lastHolder = (s.loom l).lastHolder := by
  rw [State.loom_updMe]
@[simp] theorem State.loom_updMe_quantumEnds (s : State) (g : Seq → Seq) (l : Nat) : ((s.updMe g).loom l).quantumEnds = (s.loom l).quantumEnds := by
  rw [State.loom_updMe]
@[simp] theorem State.loom_updMe_switching (s : State) (g : Seq → Seq) (l : Nat) : ((s.updMe g).loom l).switching = (s.loom l).switching := by
  rw [State.loom_updMe]
@[simp] theorem State.loom_updMe_saved (s : State) (g : Seq → Seq) (l : Nat) : ((s.updMe g).loom l).saved = (s.loom l).saved := by
  rw [State.loom_updMe]
@[simp] theorem State.loom_updMe_contained (s : State) (g : Seq → Seq) (l : Nat) : ((s.updMe g).loom l).contained = (s.loom l).contained := by
  rw [State.loom_updMe]
@[simp] theorem State.loom_updMe_quarantined (s : State) (g : Seq → Seq) (l : Nat) : ((s.updMe g).loom l).quarantined = (s.loom l).quarantined := by
  rw [State.loom_updMe]
@[simp] theorem State.loom_updMe_offline (s : State) (g : Seq → Seq) (l : Nat) : ((s.updMe g).loom l).offline = (s.loom l).offline := by
  rw [State.loom_updMe]
@[simp] theorem State.loom_updMe_containments (s : State) (g : Seq → Seq) (l : Nat) : ((s.updMe g).loom l).containments = (s.loom l).containments := by
  rw [State.loom_updMe]
@[simp] theorem State.loom_updMe_resetEnds (s : State) (g : Seq → Seq) (l : Nat) : ((s.updMe g).loom l).resetEnds = (s.loom l).resetEnds := by
  rw [State.loom_updMe]
@[simp] theorem State.loom_updMe_scrubEnds (s : State) (g : Seq → Seq) (l : Nat) : ((s.updMe g).loom l).scrubEnds = (s.loom l).scrubEnds := by
  rw [State.loom_updMe]
@[simp] theorem State.loom_updMe_counters (s : State) (g : Seq → Seq) (l : Nat) : ((s.updMe g).loom l).counters = (s.loom l).counters := by
  rw [State.loom_updMe]
@[simp] theorem State.loom_updMe_counting (s : State) (g : Seq → Seq) (l : Nat) : ((s.updMe g).loom l).counting = (s.loom l).counting := by
  rw [State.loom_updMe]

/-! ## A result put in flight -/

@[simp] theorem Seq.enter_status (q : Seq) (l : Landing) (shown : VReg) : (q.enter l shown).status = q.status := by
  unfold Seq.enter; repeat' split
  all_goals rfl
@[simp] theorem Seq.enter_launch (q : Seq) (l : Landing) (shown : VReg) : (q.enter l shown).launch = q.launch := by
  unfold Seq.enter; repeat' split
  all_goals rfl
@[simp] theorem Seq.enter_s (q : Seq) (l : Landing) (shown : VReg) : (q.enter l shown).s = q.s := by
  unfold Seq.enter; repeat' split
  all_goals rfl
@[simp] theorem Seq.enter_v (q : Seq) (l : Landing) (shown : VReg) : (q.enter l shown).v = q.v := by
  unfold Seq.enter; repeat' split
  all_goals rfl
@[simp] theorem Seq.enter_q (q : Seq) (l : Landing) (shown : VReg) : (q.enter l shown).q = q.q := by
  unfold Seq.enter; repeat' split
  all_goals rfl
@[simp] theorem Seq.enter_dt (q : Seq) (l : Landing) (shown : VReg) : (q.enter l shown).dt = q.dt := by
  unfold Seq.enter; repeat' split
  all_goals rfl
@[simp] theorem Seq.enter_ct (q : Seq) (l : Landing) (shown : VReg) : (q.enter l shown).ct = q.ct := by
  unfold Seq.enter; repeat' split
  all_goals rfl
@[simp] theorem Seq.enter_li (q : Seq) (l : Landing) (shown : VReg) : (q.enter l shown).li = q.li := by
  unfold Seq.enter; repeat' split
  all_goals rfl
@[simp] theorem Seq.enter_sl (q : Seq) (l : Landing) (shown : VReg) : (q.enter l shown).sl = q.sl := by
  unfold Seq.enter; repeat' split
  all_goals rfl
@[simp] theorem Seq.enter_rmm (q : Seq) (l : Landing) (shown : VReg) : (q.enter l shown).rmm = q.rmm := by
  unfold Seq.enter; repeat' split
  all_goals rfl
@[simp] theorem Seq.enter_nanSeen (q : Seq) (l : Landing) (shown : VReg) : (q.enter l shown).nanSeen = q.nanSeen := by
  unfold Seq.enter; repeat' split
  all_goals rfl
@[simp] theorem Seq.enter_fflags (q : Seq) (l : Landing) (shown : VReg) : (q.enter l shown).fflags = q.fflags := by
  unfold Seq.enter; repeat' split
  all_goals rfl
@[simp] theorem Seq.enter_frm (q : Seq) (l : Landing) (shown : VReg) : (q.enter l shown).frm = q.frm := by
  unfold Seq.enter; repeat' split
  all_goals rfl
@[simp] theorem Seq.enter_pc (q : Seq) (l : Landing) (shown : VReg) : (q.enter l shown).pc = q.pc := by
  unfold Seq.enter; repeat' split
  all_goals rfl
@[simp] theorem Seq.enter_loops (q : Seq) (l : Landing) (shown : VReg) : (q.enter l shown).loops = q.loops := by
  unfold Seq.enter; repeat' split
  all_goals rfl
@[simp] theorem Seq.enter_held (q : Seq) (l : Landing) (shown : VReg) : (q.enter l shown).held = q.held := by
  unfold Seq.enter; repeat' split
  all_goals rfl
@[simp] theorem Seq.enter_waitPick (q : Seq) (l : Landing) (shown : VReg) : (q.enter l shown).waitPick = q.waitPick := by
  unfold Seq.enter; repeat' split
  all_goals rfl
@[simp] theorem Seq.enter_fences (q : Seq) (l : Landing) (shown : VReg) : (q.enter l shown).fences = q.fences := by
  unfold Seq.enter; repeat' split
  all_goals rfl
@[simp] theorem Seq.enter_steps (q : Seq) (l : Landing) (shown : VReg) : (q.enter l shown).steps = q.steps := by
  unfold Seq.enter; repeat' split
  all_goals rfl
@[simp] theorem Seq.enter_past (q : Seq) (l : Landing) (shown : VReg) : (q.enter l shown).past = q.past := by
  unfold Seq.enter; repeat' split
  all_goals rfl
@[simp] theorem Seq.enter_prio (q : Seq) (l : Landing) (shown : VReg) : (q.enter l shown).prio = q.prio := by
  unfold Seq.enter; repeat' split
  all_goals rfl
@[simp] theorem Seq.enter_vclosed (q : Seq) (l : Landing) (shown : VReg) : (q.enter l shown).vclosed = q.vclosed := by
  unfold Seq.enter; repeat' split
  all_goals rfl
@[simp] theorem Seq.enter_alloc (q : Seq) (l : Landing) (shown : VReg) : (q.enter l shown).alloc = q.alloc := by
  unfold Seq.enter; repeat' split
  all_goals rfl
@[simp] theorem Seq.enter_banks (q : Seq) (l : Landing) (shown : VReg) : (q.enter l shown).banks = q.banks := by
  unfold Seq.enter; repeat' split
  all_goals rfl
@[simp] theorem Seq.enter_reopen (q : Seq) (l : Landing) (shown : VReg) : (q.enter l shown).reopen = q.reopen := by
  unfold Seq.enter; repeat' split
  all_goals rfl
@[simp] theorem Seq.enter_shape (q : Seq) (l : Landing) (shown : VReg) : (q.enter l shown).shape = q.shape := by
  unfold Seq.enter; repeat' split
  all_goals rfl
@[simp] theorem Seq.enter_window (q : Seq) (l : Landing) (shown : VReg) : (q.enter l shown).window = q.window := by
  unfold Seq.enter; repeat' split
  all_goals rfl
@[simp] theorem Seq.enter_results (q : Seq) (l : Landing) (shown : VReg) : (q.enter l shown).results = q.results := by
  unfold Seq.enter; repeat' split
  all_goals rfl
@[simp] theorem Seq.enter_activeSince (q : Seq) (l : Landing) (shown : VReg) : (q.enter l shown).activeSince = q.activeSince := by
  unfold Seq.enter; repeat' split
  all_goals rfl
@[simp] theorem Seq.enter_eligibleFrom (q : Seq) (l : Landing) (shown : VReg) : (q.enter l shown).eligibleFrom = q.eligibleFrom := by
  unfold Seq.enter; repeat' split
  all_goals rfl
@[simp] theorem Seq.enter_stopNext (q : Seq) (l : Landing) (shown : VReg) : (q.enter l shown).stopNext = q.stopNext := by
  unfold Seq.enter; repeat' split
  all_goals rfl
@[simp] theorem Seq.enter_tracing (q : Seq) (l : Landing) (shown : VReg) : (q.enter l shown).tracing = q.tracing := by
  unfold Seq.enter; repeat' split
  all_goals rfl
@[simp] theorem Seq.enter_frozenCause (q : Seq) (l : Landing) (shown : VReg) : (q.enter l shown).frozenCause = q.frozenCause := by
  unfold Seq.enter; repeat' split
  all_goals rfl
@[simp] theorem Seq.enter_frozenRun (q : Seq) (l : Landing) (shown : VReg) : (q.enter l shown).frozenRun = q.frozenRun := by
  unfold Seq.enter; repeat' split
  all_goals rfl
@[simp] theorem Seq.enter_pendingSince (q : Seq) (l : Landing) (shown : VReg) : (q.enter l shown).pendingSince = q.pendingSince := by
  unfold Seq.enter; repeat' split
  all_goals rfl
@[simp] theorem Seq.enter_noTag (q : Seq) (l : Landing) (shown : VReg) : (q.enter l shown).noTag = q.noTag := by
  unfold Seq.enter; repeat' split
  all_goals rfl
@[simp] theorem Seq.enter_asked (q : Seq) (l : Landing) (shown : VReg) : (q.enter l shown).asked = q.asked := by
  unfold Seq.enter; repeat' split
  all_goals rfl
@[simp] theorem Seq.enter_answer (q : Seq) (l : Landing) (shown : VReg) : (q.enter l shown).answer = q.answer := by
  unfold Seq.enter; repeat' split
  all_goals rfl
@[simp] theorem Seq.enter_granted (q : Seq) (l : Landing) (shown : VReg) : (q.enter l shown).granted = q.granted := by
  unfold Seq.enter; repeat' split
  all_goals rfl
@[simp] theorem Seq.enter_conflictLeft (q : Seq) (l : Landing) (shown : VReg) : (q.enter l shown).conflictLeft = q.conflictLeft := by
  unfold Seq.enter; repeat' split
  all_goals rfl
@[simp] theorem Seq.enter_conflictPaid (q : Seq) (l : Landing) (shown : VReg) : (q.enter l shown).conflictPaid = q.conflictPaid := by
  unfold Seq.enter; repeat' split
  all_goals rfl
@[simp] theorem Seq.enter_slipped (q : Seq) (l : Landing) (shown : VReg) : (q.enter l shown).slipped = q.slipped := by
  unfold Seq.enter; repeat' split
  all_goals rfl
@[simp] theorem Seq.enter_replaying (q : Seq) (l : Landing) (shown : VReg) : (q.enter l shown).replaying = q.replaying := by
  unfold Seq.enter; repeat' split
  all_goals rfl
@[simp] theorem Seq.enter_replayed (q : Seq) (l : Landing) (shown : VReg) : (q.enter l shown).replayed = q.replayed := by
  unfold Seq.enter; repeat' split
  all_goals rfl
@[simp] theorem Seq.enter_resuming (q : Seq) (l : Landing) (shown : VReg) : (q.enter l shown).resuming = q.resuming := by
  unfold Seq.enter; repeat' split
  all_goals rfl
@[simp] theorem Seq.enter_sysReleased (q : Seq) (l : Landing) (shown : VReg) : (q.enter l shown).sysReleased = q.sysReleased := by
  unfold Seq.enter; repeat' split
  all_goals rfl

end Sys2Proof.Machine
end

