-- ==== Sys2Proof/Laws/Ops.lean ====
section
/-!
SUPPORT. What each shared operation of the machine does, said once: results in flight, tokens, waits, writes of a pick,
engine slots, records, counters, and little-endian numbers.
-/

namespace Sys2Proof

/-! ## Little-endian numbers (R1) -/

@[simp] theorem leBytes_length (n x : Nat) : (leBytes n x).length = n := by
  induction n generalizing x with
  | zero => rfl
  | succ n ih => simp [leBytes, ih]
/-- A number read back from its n low bytes. -/
theorem leNat_leBytes (n x : Nat) : leNat (leBytes n x) = x % 256 ^ n := by
  induction n generalizing x with
  | zero => simp [leBytes, leNat, Nat.mod_one]
  | succ n ih =>
    simp only [leBytes, leNat, ih, BitVec.toNat_ofNat]
    rw [show (256 : Nat) ^ (n + 1) = 256 * 256 ^ n by rw [Nat.pow_succ, Nat.mul_comm], Nat.mod_mul]
/-- A number of n bytes is below 256^n. -/
theorem leNat_lt (bs : List Byte) : leNat bs < 256 ^ bs.length := by
  induction bs with
  | nil => simp [leNat]
  | cons b r ih =>
    have := b.isLt
    simp only [leNat, List.length_cons, Nat.pow_succ]
    omega
/-- Bytes written out again from the number that they hold. -/
theorem leBytes_leNat (bs : List Byte) : leBytes bs.length (leNat bs) = bs := by
  induction bs with
  | nil => rfl
  | cons b r ih =>
    have h := b.isLt
    simp only [List.length_cons, leBytes, leNat]
    congr 1
    · apply BitVec.eq_of_toNat_eq; simp only [BitVec.toNat_ofNat]; omega
    · rw [show (b.toNat + 256 * leNat r) / 256 = leNat r by omega, ih]

namespace Machine

/-! ## Registers and results in flight (R14, R25) -/

@[simp] theorem Seq.rdS_zero (q : Seq) : q.rdS 0 = 0#64 := rfl
@[simp] theorem Seq.rdS_enter (q : Seq) (l : Landing) (w : VReg) (r : Nat) : (q.enter l w).rdS r = q.rdS r := by
  simp [Seq.rdS]
@[simp] theorem Seq.rdV_enter (q : Seq) (l : Landing) (w : VReg) (r : Nat) : (q.enter l w).rdV r = q.rdV r := by
  simp [Seq.rdV]
@[simp] theorem Seq.rdQ_enter (q : Seq) (l : Landing) (w : VReg) (r : Nat) : (q.enter l w).rdQ r = q.rdQ r := by
  simp [Seq.rdQ]
/-- A result is put last in flight where no slot of its group has written its register. -/
theorem Seq.flight_enter (q : Seq) (l : Landing) (w : VReg) (h : q.group.find? (fun g => g.dest == l.dest) = none) :
    (q.enter l w).flight = q.flight ++ [l] := by
  unfold Seq.enter
  split
  · rfl
  · simp [h]
/-- Where no slot of the group has written a register, a slot reads what it holds. -/
theorem Seq.view_of_fresh (q : Seq) (d : Dest) (h : q.group.find? (fun g => g.dest == d) = none) : q.view d = q.content d := by
  simp [Seq.view, h]
/-- A result changes the current sequencer alone. -/
theorem State.result_eq (s : State) (d : Dest) (lat : Nat) (mask value : VReg) :
    s.result d lat mask value = s.updMe (fun q => q.enter (s.landing d lat mask value .yes) value) := rfl
@[simp] theorem State.me_result (s : State) (d : Dest) (lat : Nat) (mask value : VReg) :
    (s.result d lat mask value).me = s.me.enter (s.landing d lat mask value .yes) value := by simp [State.result_eq]
@[simp] theorem State.cur_result (s : State) (d : Dest) (lat : Nat) (mask value : VReg) :
    (s.result d lat mask value).cur = s.cur := by simp [State.result_eq]
@[simp] theorem State.issue_result (s : State) (d : Dest) (lat : Nat) (mask value : VReg) :
    (s.result d lat mask value).issue = s.issue := by simp [State.result_eq]
/-- A result leaves everything but the sequencers of a loom alone. -/
theorem State.loom_result (s : State) (d : Dest) (lat : Nat) (mask value : VReg) (l : Nat) :
    (s.result d lat mask value).loom l = { s.loom l with seqs := ((s.result d lat mask value).loom l).seqs } :=
  State.loom_updMe s _ l
/-- Flags join fflags, and nothing else changes. -/
@[simp] theorem State.me_raise (s : State) (f : BitVec 5) : (s.raise f).me = { s.me with fflags := s.me.fflags ||| f } := by
  simp [State.raise]

/-! ## Waits (R21, R22) -/

@[simp] theorem State.hold_eq (s : State) : s.hold = { s with issue := none } := rfl
@[simp] theorem State.issue_waitFor (s : State) (w : Wait) : (s.waitFor w).issue = none := rfl
@[simp] theorem Seq.wake_status (q : Seq) (cycle : Nat) : (q.wake cycle).status = .ready := rfl
@[simp] theorem Seq.wake_eligibleFrom (q : Seq) (cycle : Nat) : (q.wake cycle).eligibleFrom = cycle + 1 := rfl
/-- A wait that begins when the pick in progress has issued. -/
theorem State.thenWait_of_issue (s : State) (k : Issue) (w : Wait) (h : s.issue = some k) :
    s.thenWait w = { s with issue := some { k with after := some w } } := by
  simp [State.thenWait, h, State.updIssue]

/-! ## Tokens (R160, R360) -/

/-- The named tokens are all set when each of them is. -/
theorem Seq.tokensSet_iff (q : Seq) (mask : BitVec 8) :
    q.tokensSet mask = true ↔ ∀ k, k < 8 → mask.getLsbD k = true → q.dt.getLsbD k = true := by
  simp only [Seq.tokensSet, beq_iff_eq]
  constructor
  · intro h k hk hm
    have := congrArg (fun x : BitVec 8 => x.getLsbD k) h
    simp [hm] at this
    exact this
  · intro h
    apply BitVec.eq_of_getLsbD_eq
    intro k hk
    have := h k hk
    simp only [BitVec.getLsbD_and]
    cases hm : mask.getLsbD k <;> simp_all
/-- A token that is neither set nor outstanding never comes. -/
theorem State.neverSet_iff (s : State) (mask : BitVec 8) :
    s.neverSet mask = true ↔
      ∃ k, k < 8 ∧ mask.getLsbD k = true ∧ s.me.dtView.getLsbD k = false ∧ s.outstanding k = false := by
  simp [State.neverSet, and_assoc]
/-- Where no slot of the group has cleared a token, a slot sees the tokens that are set. -/
theorem Seq.dtView_of_fresh (q : Seq) (h : ∀ k, q.group.find? (fun g => g.dest == .token k) = none) : q.dtView = q.dt := by
  have hv : ∀ k, (q.view (.token k)).getLsbD 0 = q.dt.getLsbD k := fun k => by
    rw [Seq.view_of_fresh q _ (h k)]; simp [Seq.content]
  simp only [Seq.dtView, hv]
  generalize q.dt = d
  revert d
  decide
theorem Seq.seesTokens_of_fresh (q : Seq) (mask : BitVec 8) (h : ∀ k, q.group.find? (fun g => g.dest == .token k) = none) :
    q.seesTokens mask = q.tokensSet mask := by
  simp [Seq.seesTokens, Seq.tokensSet, Seq.dtView_of_fresh q h]
/-- A set token. -/
@[simp] theorem Seq.setToken_dt (q : Seq) (k cycle : Nat) : (q.setToken k cycle).dt = q.dt ||| (1#8 <<< k) := by
  unfold Seq.setToken Seq.wakeTokens
  split
  · split <;> rfl
  · rfl
@[simp] theorem Seq.setToken_results (q : Seq) (k cycle : Nat) : (q.setToken k cycle).results = q.results := by
  unfold Seq.setToken Seq.wakeTokens
  split
  · split <;> rfl
  · rfl
@[simp] theorem Seq.setToken_launch (q : Seq) (k cycle : Nat) : (q.setToken k cycle).launch = q.launch := by
  unfold Seq.setToken Seq.wakeTokens
  split
  · split <;> rfl
  · rfl

/-! ## Engine slots (R211, R354) -/

/-- A token that never comes stops the pick with 0x607. -/
theorem State.engineSlot_never (s : State) (e : Engine) (wm : BitVec 8) (fault : Option Nat) (x : DWord) (c : Cmd)
    (h : s.neverSet wm = true) : s.engineSlot e wm fault x c = s.stopSlot 0x607 1 0#64 := by
  simp [State.engineSlot, State.afterTokens, h]
/-- An unset token holds the pick until it comes. -/
theorem State.engineSlot_waits (s : State) (e : Engine) (wm : BitVec 8) (fault : Option Nat) (x : DWord) (c : Cmd)
    (h : s.neverSet wm = false) (ht : s.me.seesTokens wm = false) : s.engineSlot e wm fault x c = s.waitFor (.tokens wm) := by
  simp [State.engineSlot, State.afterTokens, h, ht]
/-- A check that fails stops the pick. -/
theorem State.engineSlot_stops (s : State) (e : Engine) (wm : BitVec 8) (code : Nat) (x : DWord) (c : Cmd)
    (h : s.neverSet wm = false) (ht : s.me.seesTokens wm = true) : s.engineSlot e wm (some code) x c = s.stopSlot code 1 x := by
  simp [State.engineSlot, State.afterTokens, h, ht]
/-- A full queue holds the pick. -/
theorem State.engineSlot_holds (s : State) (e : Engine) (wm : BitVec 8) (x : DWord) (c : Cmd)
    (h : s.neverSet wm = false) (ht : s.me.seesTokens wm = true) (hf : (s.loom s.cur.loom).full e = true) :
    s.engineSlot e wm none x c = { s with issue := none } := by
  simp [State.engineSlot, State.afterTokens, h, ht, hf]
/-- Else the tokens are cleared and the command is last in its queue. -/
theorem State.engineSlot_enters (s : State) (e : Engine) (wm : BitVec 8) (x : DWord) (c : Cmd)
    (h : s.neverSet wm = false) (ht : s.me.seesTokens wm = true) (hf : (s.loom s.cur.loom).full e = false) :
    s.engineSlot e wm none x c = (s.clearTokens wm).updCmds s.cur.loom e (fun q => q ++ [c]) := by
  simp [State.engineSlot, State.afterTokens, h, ht, hf]
/-- A queue that has been put in place. -/
@[simp] theorem Queues.get_put (q : Queues) (e : Engine) (l : List Cmd) : (q.put e l).get e = l := by cases e <;> rfl
theorem Queues.get_put_ne (q : Queues) {e f : Engine} (l : List Cmd) (h : f ≠ e) : (q.put e l).get f = q.get f := by
  cases e <;> cases f <;> first | rfl | exact absurd rfl h
/-- The queue of an engine after it has been changed. -/
theorem State.cmds_updCmds (s : State) (l k : Nat) (e : Engine) (f : List Cmd → List Cmd) :
    ((s.updCmds l e f).loom k).cmds e = if k = l then f ((s.loom l).cmds e) else (s.loom k).cmds e := by
  simp only [State.updCmds, State.loom_updLoom, Loom.cmds]
  split <;> simp

/-! ## Writes of the pick in progress (R192) -/

/-- A write of a slot waits in the pick in progress. -/
theorem State.bufferWrite_of_issue (s : State) (k : Issue) (w : PickWrite) (h : s.issue = some k) :
    s.bufferWrite w = { s with issue := some { k with writes := k.writes ++ [w] } } := by
  simp [State.bufferWrite, h]
/-- With no write waiting, the writes of a pick change nothing. -/
theorem State.commitWrites_of_none (s : State) (k : Issue) (h : s.issue = some k) (hw : k.writes = []) : s.commitWrites = s := by
  simp only [State.commitWrites, h, hw, List.foldl_nil]
  cases k; cases s; simp_all

/-! ## Counters and records -/

/-- Counting changes one loom's counts of the cycle and nothing else of it. -/
theorem State.loom_count (s : State) (l t k n j : Nat) :
    (s.count l t k n).loom j = { s.loom j with counting := ((s.count l t k n).loom j).counting } := by
  unfold State.count
  split
  · rfl
  · simp only [State.loom_updLoom]
    split <;> simp_all
/-- A record is noted for the end of its cycle, and nothing else changes. -/
@[simp] theorem State.detected_record (s : State) (t : Nat) (r : FaultRecord) :
    (s.record t r).detected = s.detected ++ [(t, r)] := rfl
@[simp] theorem State.tenancy_record (s : State) (t k : Nat) (r : FaultRecord) : (s.record t r).tenancy k = s.tenancy k := rfl
@[simp] theorem State.loom_record (s : State) (t l : Nat) (r : FaultRecord) : (s.record t r).loom l = s.loom l := rfl

end Machine
end Sys2Proof
end

