-- ==== Sys2Proof/Laws/PerInstr.lean ====
section
/-!
SUPPORT. Statements for all instructions, made per instruction: the operation and the operands of a slot give back its
instruction, so that a checked slot always decodes (R326).
-/

namespace Sys2Proof.Laws.SlotsReadBack

/-- The slot of an instruction reads back as that instruction. -/
def Statement (i : Instr) : Prop := ∀ x, i.slot = some x → x.instr = some i

/-- An event has no slot. -/
theorem ofNone {i : Instr} (h : i.slot = none) : Statement i := fun x hx => by
  rw [h] at hx
  cases hx
/-- It is enough to look at the instruction's own slot. -/
theorem ofSlot {i : Instr} {y : Slot} (hs : i.slot = some y) (hy : y.instr = some i) : Statement i := fun x h => by
  rw [hs] at h
  exact Option.some.inj h ▸ hy

theorem pickIssue (agent : Issuer) : Statement (.pickIssue agent) := ofNone rfl
theorem subnormalReplay (loom seq : Nat) : Statement (.subnormalReplay loom seq) := ofNone rfl
theorem nop : Statement .nop := ofSlot rfl rfl
theorem add (o : ScalarReg) : Statement (.add o) := ofSlot rfl rfl
theorem addImm (o : ScalarImm) : Statement (.addImm o) := ofSlot rfl rfl
theorem sub (o : ScalarReg) : Statement (.sub o) := ofSlot rfl rfl
theorem subImm (o : ScalarImm) : Statement (.subImm o) := ofSlot rfl rfl
theorem mul (o : ScalarReg) : Statement (.mul o) := ofSlot rfl rfl
theorem mulImm (o : ScalarImm) : Statement (.mulImm o) := ofSlot rfl rfl
theorem mulh (o : ScalarReg) : Statement (.mulh o) := ofSlot rfl rfl
theorem mulhImm (o : ScalarImm) : Statement (.mulhImm o) := ofSlot rfl rfl
theorem mulhu (o : ScalarReg) : Statement (.mulhu o) := ofSlot rfl rfl
theorem mulhuImm (o : ScalarImm) : Statement (.mulhuImm o) := ofSlot rfl rfl
theorem div (o : ScalarReg) : Statement (.div o) := ofSlot rfl rfl
theorem divImm (o : ScalarImm) : Statement (.divImm o) := ofSlot rfl rfl
theorem divu (o : ScalarReg) : Statement (.divu o) := ofSlot rfl rfl
theorem divuImm (o : ScalarImm) : Statement (.divuImm o) := ofSlot rfl rfl
theorem rem (o : ScalarReg) : Statement (.rem o) := ofSlot rfl rfl
theorem remImm (o : ScalarImm) : Statement (.remImm o) := ofSlot rfl rfl
theorem remu (o : ScalarReg) : Statement (.remu o) := ofSlot rfl rfl
theorem remuImm (o : ScalarImm) : Statement (.remuImm o) := ofSlot rfl rfl
theorem and (o : ScalarReg) : Statement (.and o) := ofSlot rfl rfl
theorem andImm (o : ScalarImm) : Statement (.andImm o) := ofSlot rfl rfl
theorem or (o : ScalarReg) : Statement (.or o) := ofSlot rfl rfl
theorem orImm (o : ScalarImm) : Statement (.orImm o) := ofSlot rfl rfl
theorem xor (o : ScalarReg) : Statement (.xor o) := ofSlot rfl rfl
theorem xorImm (o : ScalarImm) : Statement (.xorImm o) := ofSlot rfl rfl
theorem andn (o : ScalarReg) : Statement (.andn o) := ofSlot rfl rfl
theorem andnImm (o : ScalarImm) : Statement (.andnImm o) := ofSlot rfl rfl
theorem shl (o : ScalarReg) : Statement (.shl o) := ofSlot rfl rfl
theorem shlImm (o : ScalarImm) : Statement (.shlImm o) := ofSlot rfl rfl
theorem shr (o : ScalarReg) : Statement (.shr o) := ofSlot rfl rfl
theorem shrImm (o : ScalarImm) : Statement (.shrImm o) := ofSlot rfl rfl
theorem sar (o : ScalarReg) : Statement (.sar o) := ofSlot rfl rfl
theorem sarImm (o : ScalarImm) : Statement (.sarImm o) := ofSlot rfl rfl
theorem rol (o : ScalarReg) : Statement (.rol o) := ofSlot rfl rfl
theorem rolImm (o : ScalarImm) : Statement (.rolImm o) := ofSlot rfl rfl
theorem min (o : ScalarReg) : Statement (.min o) := ofSlot rfl rfl
theorem minImm (o : ScalarImm) : Statement (.minImm o) := ofSlot rfl rfl
theorem max (o : ScalarReg) : Statement (.max o) := ofSlot rfl rfl
theorem maxImm (o : ScalarImm) : Statement (.maxImm o) := ofSlot rfl rfl
theorem minu (o : ScalarReg) : Statement (.minu o) := ofSlot rfl rfl
theorem minuImm (o : ScalarImm) : Statement (.minuImm o) := ofSlot rfl rfl
theorem maxu (o : ScalarReg) : Statement (.maxu o) := ofSlot rfl rfl
theorem maxuImm (o : ScalarImm) : Statement (.maxuImm o) := ofSlot rfl rfl
theorem seq (o : ScalarReg) : Statement (.seq o) := ofSlot rfl rfl
theorem seqImm (o : ScalarImm) : Statement (.seqImm o) := ofSlot rfl rfl
theorem sne (o : ScalarReg) : Statement (.sne o) := ofSlot rfl rfl
theorem sneImm (o : ScalarImm) : Statement (.sneImm o) := ofSlot rfl rfl
theorem slt (o : ScalarReg) : Statement (.slt o) := ofSlot rfl rfl
theorem sltImm (o : ScalarImm) : Statement (.sltImm o) := ofSlot rfl rfl
theorem sltu (o : ScalarReg) : Statement (.sltu o) := ofSlot rfl rfl
theorem sltuImm (o : ScalarImm) : Statement (.sltuImm o) := ofSlot rfl rfl
theorem sle (o : ScalarReg) : Statement (.sle o) := ofSlot rfl rfl
theorem sleImm (o : ScalarImm) : Statement (.sleImm o) := ofSlot rfl rfl
theorem sleu (o : ScalarReg) : Statement (.sleu o) := ofSlot rfl rfl
theorem sleuImm (o : ScalarImm) : Statement (.sleuImm o) := ofSlot rfl rfl
theorem csel (o : ScalarSel) : Statement (.csel o) := ofSlot rfl rfl
theorem cselImm (o : ScalarImm) : Statement (.cselImm o) := ofSlot rfl rfl
theorem movi (o : ScalarConst) : Statement (.movi o) := ofSlot rfl rfl
theorem movk (o : ScalarConst) : Statement (.movk o) := ofSlot rfl rfl
theorem clz (o : ScalarUnary) : Statement (.clz o) := ofSlot rfl rfl
theorem ctz (o : ScalarUnary) : Statement (.ctz o) := ofSlot rfl rfl
theorem popc (o : ScalarUnary) : Statement (.popc o) := ofSlot rfl rfl
theorem bext (o : ScalarReg) : Statement (.bext o) := ofSlot rfl rfl
theorem bextImm (o : ScalarImm) : Statement (.bextImm o) := ofSlot rfl rfl
theorem bins (o : ScalarSel) : Statement (.bins o) := ofSlot rfl rfl
theorem binsImm (o : ScalarImm) : Statement (.binsImm o) := ofSlot rfl rfl
theorem sext (o : ScalarReg) : Statement (.sext o) := ofSlot rfl rfl
theorem sextImm (o : ScalarImm) : Statement (.sextImm o) := ofSlot rfl rfl
theorem fadd64 (o : ScalarReg) : Statement (.fadd64 o) := ofSlot rfl rfl
theorem fsub64 (o : ScalarReg) : Statement (.fsub64 o) := ofSlot rfl rfl
theorem fmul64 (o : ScalarReg) : Statement (.fmul64 o) := ofSlot rfl rfl
theorem fdiv64 (o : ScalarReg) : Statement (.fdiv64 o) := ofSlot rfl rfl
theorem fmin64 (o : ScalarReg) : Statement (.fmin64 o) := ofSlot rfl rfl
theorem fmax64 (o : ScalarReg) : Statement (.fmax64 o) := ofSlot rfl rfl
theorem feq (o : ScalarReg) : Statement (.feq o) := ofSlot rfl rfl
theorem flt (o : ScalarReg) : Statement (.flt o) := ofSlot rfl rfl
theorem fle (o : ScalarReg) : Statement (.fle o) := ofSlot rfl rfl
theorem fcvtfi (o : ScalarUnary) : Statement (.fcvtfi o) := ofSlot rfl rfl
theorem fcvtif (o : ScalarUnary) : Statement (.fcvtif o) := ofSlot rfl rfl
theorem fsqrt64 (o : ScalarUnary) : Statement (.fsqrt64 o) := ofSlot rfl rfl
theorem rdsys (o : ScalarNum) : Statement (.rdsys o) := ofSlot rfl rfl
theorem wrsys (o : ScalarWrsys) : Statement (.wrsys o) := ofSlot rfl rfl
theorem segq (o : ScalarQuery) : Statement (.segq o) := ofSlot rfl rfl
theorem segqImm (o : ScalarConst) : Statement (.segqImm o) := ofSlot rfl rfl
theorem whoami (o : ScalarNum) : Statement (.whoami o) := ofSlot rfl rfl
theorem rdcnt (o : ScalarQuery) : Statement (.rdcnt o) := ofSlot rfl rfl
theorem rdcntImm (o : ScalarConst) : Statement (.rdcntImm o) := ofSlot rfl rfl
theorem lidx (o : ScalarNum) : Statement (.lidx o) := ofSlot rfl rfl
theorem rdtok (o : ScalarDest) : Statement (.rdtok o) := ofSlot rfl rfl
theorem rdtag (o : ScalarDest) : Statement (.rdtag o) := ofSlot rfl rfl
theorem brc (a : BitVec 6) (n : Bool) (off : BitVec 28) : Statement (.brc a n off) := ofSlot rfl rfl
theorem call (off : BitVec 28) : Statement (.call off) := ofSlot rfl rfl
theorem jmp (a : BitVec 6) : Statement (.jmp a) := ofSlot rfl rfl
theorem calli (a : BitVec 6) : Statement (.calli a) := ofSlot rfl rfl
theorem ret : Statement .ret := ofSlot rfl rfl
theorem loop (cnt : BitVec 10) (len : BitVec 8) : Statement (.loop cnt len) := ofSlot rfl rfl
theorem loopReg (a : BitVec 6) (len : BitVec 8) : Statement (.loopReg a len) := ofSlot rfl rfl
theorem loopq (q : BitVec 2) (len : BitVec 8) : Statement (.loopq q len) := ofSlot rfl rfl
theorem brkl : Statement .brkl := ofSlot rfl rfl
theorem rep (cnt : BitVec 10) (stride : BitVec 4) : Statement (.rep cnt stride) := ofSlot rfl rfl
theorem repReg (a : BitVec 6) (stride : BitVec 4) : Statement (.repReg a stride) := ofSlot rfl rfl
theorem wait (bar : BitVec 8) (phase : BitVec 4) (d a : BitVec 6) : Statement (.wait bar phase d a) :=
  ofSlot rfl rfl
theorem arrive (bar : BitVec 8) (n : BitVec 4) : Statement (.arrive bar n) := ofSlot rfl rfl
theorem arriveReg (bar : BitVec 8) (a : BitVec 6) : Statement (.arriveReg bar a) := ofSlot rfl rfl
theorem arrivew (bar : BitVec 8) (n : BitVec 4) (d : BitVec 6) : Statement (.arrivew bar n d) :=
  ofSlot rfl rfl
theorem arrivewReg (bar : BitVec 8) (a d : BitVec 6) : Statement (.arrivewReg bar a d) := ofSlot rfl rfl
theorem dtwait (mask : BitVec 8) : Statement (.dtwait mask) := ofSlot rfl rfl
theorem spawn (seq : BitVec 3) (base : BitVec 6) (count : BitVec 4) (entry : BitVec 22) : Statement (.spawn seq base count entry) :=
  ofSlot rfl rfl
theorem halt : Statement .halt := ofSlot rfl rfl
theorem trap (code : BitVec 8) : Statement (.trap code) := ofSlot rfl rfl
theorem mark (mstep : BitVec 34) : Statement (.mark mstep) := ofSlot rfl rfl
theorem yield : Statement .yield := ofSlot rfl rfl
theorem taga (d : BitVec 6) : Statement (.taga d) := ofSlot rfl rfl
theorem tret (a : BitVec 6) : Statement (.tret a) := ofSlot rfl rfl
theorem tfold (a : BitVec 6) : Statement (.tfold a) := ofSlot rfl rfl
theorem tset (a : BitVec 6) : Statement (.tset a) := ofSlot rfl rfl
theorem cqfill (q : BitVec 2) (seg : BitVec 12) (o : BitVec 6) (cnt : BitVec 5) : Statement (.cqfill q seg o cnt) :=
  ofSlot rfl rfl
theorem cqpush (q : BitVec 2) (a : BitVec 6) : Statement (.cqpush q a) := ofSlot rfl rfl
theorem launch (a b : BitVec 6) : Statement (.launch a b) := ofSlot rfl rfl
theorem waitw (a b : BitVec 6) : Statement (.waitw a b) := ofSlot rfl rfl
theorem signal (a b : BitVec 6) : Statement (.signal a b) := ofSlot rfl rfl
theorem fadd (o : VecOps) : Statement (.fadd o) := ofSlot rfl rfl
theorem fsub (o : VecOps) : Statement (.fsub o) := ofSlot rfl rfl
theorem fmul (o : VecOps) : Statement (.fmul o) := ofSlot rfl rfl
theorem fma (o : VecOps) : Statement (.fma o) := ofSlot rfl rfl
theorem fmin (o : VecOps) : Statement (.fmin o) := ofSlot rfl rfl
theorem fmax (o : VecOps) : Statement (.fmax o) := ofSlot rfl rfl
theorem fabs (o : VecOps) : Statement (.fabs o) := ofSlot rfl rfl
theorem fneg (o : VecOps) : Statement (.fneg o) := ofSlot rfl rfl
theorem iadd (o : VecOps) : Statement (.iadd o) := ofSlot rfl rfl
theorem isub (o : VecOps) : Statement (.isub o) := ofSlot rfl rfl
theorem imul (o : VecOps) : Statement (.imul o) := ofSlot rfl rfl
theorem imulh (o : VecOps) : Statement (.imulh o) := ofSlot rfl rfl
theorem iand (o : VecOps) : Statement (.iand o) := ofSlot rfl rfl
theorem ior (o : VecOps) : Statement (.ior o) := ofSlot rfl rfl
theorem ixor (o : VecOps) : Statement (.ixor o) := ofSlot rfl rfl
theorem ishl (o : VecOps) : Statement (.ishl o) := ofSlot rfl rfl
theorem ishr (o : VecOps) : Statement (.ishr o) := ofSlot rfl rfl
theorem isar (o : VecOps) : Statement (.isar o) := ofSlot rfl rfl
theorem imin (o : VecOps) : Statement (.imin o) := ofSlot rfl rfl
theorem imax (o : VecOps) : Statement (.imax o) := ofSlot rfl rfl
theorem iminu (o : VecOps) : Statement (.iminu o) := ofSlot rfl rfl
theorem imaxu (o : VecOps) : Statement (.imaxu o) := ofSlot rfl rfl
theorem iaddi (o : VecOps) : Statement (.iaddi o) := ofSlot rfl rfl
theorem idot4 (o : VecOps) : Statement (.idot4 o) := ofSlot rfl rfl
theorem vcmp (o : VecOps) : Statement (.vcmp o) := ofSlot rfl rfl
theorem vsel (o : VecOps) : Statement (.vsel o) := ofSlot rfl rfl
theorem vmov (o : VecOps) : Statement (.vmov o) := ofSlot rfl rfl
theorem vbcs (o : VecOps) : Statement (.vbcs o) := ofSlot rfl rfl
theorem vidx (o : VecOps) : Statement (.vidx o) := ofSlot rfl rfl
theorem vshuf (o : VecOps) : Statement (.vshuf o) := ofSlot rfl rfl
theorem vrot (o : VecOps) : Statement (.vrot o) := ofSlot rfl rfl
theorem vcat (o : VecOps) : Statement (.vcat o) := ofSlot rfl rfl
theorem vred (o : VecOps) : Statement (.vred o) := ofSlot rfl rfl
theorem vscan (o : VecOps) : Statement (.vscan o) := ofSlot rfl rfl
theorem vput (o : VecOps) : Statement (.vput o) := ofSlot rfl rfl
theorem vcvt (o : VecOps) : Statement (.vcvt o) := ofSlot rfl rfl
theorem vpack (o : VecOps) : Statement (.vpack o) := ofSlot rfl rfl
theorem vunpk (o : VecOps) : Statement (.vunpk o) := ofSlot rfl rfl
theorem vmaxe (o : VecOps) : Statement (.vmaxe o) := ofSlot rfl rfl
theorem vqnt (o : VecOps) : Statement (.vqnt o) := ofSlot rfl rfl
theorem vdeq (o : VecOps) : Statement (.vdeq o) := ofSlot rfl rfl
theorem vrmm (o : VecOps) : Statement (.vrmm o) := ofSlot rfl rfl
theorem pand (o : VecOps) : Statement (.pand o) := ofSlot rfl rfl
theorem por (o : VecOps) : Statement (.por o) := ofSlot rfl rfl
theorem pxor (o : VecOps) : Statement (.pxor o) := ofSlot rfl rfl
theorem pnot (o : VecOps) : Statement (.pnot o) := ofSlot rfl rfl
theorem pmov (o : VecOps) : Statement (.pmov o) := ofSlot rfl rfl
theorem vclass (o : VecOps) : Statement (.vclass o) := ofSlot rfl rfl
theorem vrnd (o : VecOps) : Statement (.vrnd o) := ofSlot rfl rfl
theorem frcp (o : FnOps) : Statement (.frcp o) := ofSlot rfl rfl
theorem frsqrt (o : FnOps) : Statement (.frsqrt o) := ofSlot rfl rfl
theorem fnFsqrt (o : FnOps) : Statement (.fnFsqrt o) := ofSlot rfl rfl
theorem fnFdiv (o : FnOps) : Statement (.fnFdiv o) := ofSlot rfl rfl
theorem fexp2 (o : FnOps) : Statement (.fexp2 o) := ofSlot rfl rfl
theorem flog2 (o : FnOps) : Statement (.flog2 o) := ofSlot rfl rfl
theorem fexp (o : FnOps) : Statement (.fexp o) := ofSlot rfl rfl
theorem flog (o : FnOps) : Statement (.flog o) := ofSlot rfl rfl
theorem fsin (o : FnOps) : Statement (.fsin o) := ofSlot rfl rfl
theorem fcos (o : FnOps) : Statement (.fcos o) := ofSlot rfl rfl
theorem ftanh (o : FnOps) : Statement (.ftanh o) := ofSlot rfl rfl
theorem fsigm (o : FnOps) : Statement (.fsigm o) := ofSlot rfl rfl
theorem ferf (o : FnOps) : Statement (.ferf o) := ofSlot rfl rfl
theorem scxd (o : SortOps) : Statement (.scxd o) := ofSlot rfl rfl
theorem scxa (o : SortOps) : Statement (.scxa o) := ofSlot rfl rfl
theorem scxb (o : SortOps) : Statement (.scxb o) := ofSlot rfl rfl
theorem scx2d (o : SortOps) : Statement (.scx2d o) := ofSlot rfl rfl
theorem scx2a (o : SortOps) : Statement (.scx2a o) := ofSlot rfl rfl
theorem lb (o : MemSeg) : Statement (.lb o) := ofSlot rfl rfl
theorem lbu (o : MemSeg) : Statement (.lbu o) := ofSlot rfl rfl
theorem lh (o : MemSeg) : Statement (.lh o) := ofSlot rfl rfl
theorem lhu (o : MemSeg) : Statement (.lhu o) := ofSlot rfl rfl
theorem lw (o : MemSeg) : Statement (.lw o) := ofSlot rfl rfl
theorem lwu (o : MemSeg) : Statement (.lwu o) := ofSlot rfl rfl
theorem ld (o : MemSeg) : Statement (.ld o) := ofSlot rfl rfl
theorem sb (o : MemSeg) : Statement (.sb o) := ofSlot rfl rfl
theorem sh (o : MemSeg) : Statement (.sh o) := ofSlot rfl rfl
theorem sw (o : MemSeg) : Statement (.sw o) := ofSlot rfl rfl
theorem sd (o : MemSeg) : Statement (.sd o) := ofSlot rfl rfl
theorem lvW256 (o : MemSeg) : Statement (.lvW256 o) := ofSlot rfl rfl
theorem lvW512 (o : MemSeg) : Statement (.lvW512 o) := ofSlot rfl rfl
theorem lvW1024 (o : MemSeg) : Statement (.lvW1024 o) := ofSlot rfl rfl
theorem svW256 (o : MemSeg) : Statement (.svW256 o) := ofSlot rfl rfl
theorem svW512 (o : MemSeg) : Statement (.svW512 o) := ofSlot rfl rfl
theorem svW1024 (o : MemSeg) : Statement (.svW1024 o) := ofSlot rfl rfl
theorem lvg (o : MemSeg) : Statement (.lvg o) := ofSlot rfl rfl
theorem svg (o : MemSeg) : Statement (.svg o) := ofSlot rfl rfl
theorem ldx (o : MemCross) : Statement (.ldx o) := ofSlot rfl rfl
theorem lvx (o : MemCross) : Statement (.lvx o) := ofSlot rfl rfl
theorem aadd (o : MemSeg) : Statement (.aadd o) := ofSlot rfl rfl
theorem afadd (o : MemSeg) : Statement (.afadd o) := ofSlot rfl rfl
theorem amin (o : MemSeg) : Statement (.amin o) := ofSlot rfl rfl
theorem amax (o : MemSeg) : Statement (.amax o) := ofSlot rfl rfl
theorem aminu (o : MemSeg) : Statement (.aminu o) := ofSlot rfl rfl
theorem amaxu (o : MemSeg) : Statement (.amaxu o) := ofSlot rfl rfl
theorem aand (o : MemSeg) : Statement (.aand o) := ofSlot rfl rfl
theorem aor (o : MemSeg) : Statement (.aor o) := ofSlot rfl rfl
theorem axor (o : MemSeg) : Statement (.axor o) := ofSlot rfl rfl
theorem axch (o : MemSeg) : Statement (.axch o) := ofSlot rfl rfl
theorem acas (o : MemSeg) : Statement (.acas o) := ofSlot rfl rfl
theorem aadd64 (o : MemSeg) : Statement (.aadd64 o) := ofSlot rfl rfl
theorem axch64 (o : MemSeg) : Statement (.axch64 o) := ofSlot rfl rfl
theorem acas64 (o : MemSeg) : Statement (.acas64 o) := ofSlot rfl rfl
theorem fence (o : FenceOps) : Statement (.fence o) := ofSlot rfl rfl
theorem lacq (o : MemAcq) : Statement (.lacq o) := ofSlot rfl rfl
theorem srel (o : MemAcq) : Statement (.srel o) := ofSlot rfl rfl
theorem binit (o : MemSeg) : Statement (.binit o) := ofSlot rfl rfl
theorem bbind (o : MemSeg) : Statement (.bbind o) := ofSlot rfl rfl
theorem btx (o : MemSeg) : Statement (.btx o) := ofSlot rfl rfl
theorem vact (o : VaultRow) : Statement (.vact o) := ofSlot rfl rfl
theorem vpre (o : VaultRow) : Statement (.vpre o) := ofSlot rfl rfl
theorem vref (o : VaultRef) : Statement (.vref o) := ofSlot rfl rfl
theorem vld (o : VaultCol) : Statement (.vld o) := ofSlot rfl rfl
theorem vst (o : VaultCol) : Statement (.vst o) := ofSlot rfl rfl
theorem vldr (o : MemFar) : Statement (.vldr o) := ofSlot rfl rfl
theorem vstr (o : MemFar) : Statement (.vstr o) := ofSlot rfl rfl
theorem lfd (o : MemFar) : Statement (.lfd o) := ofSlot rfl rfl
theorem sfd (o : MemFar) : Statement (.sfd o) := ofSlot rfl rfl
theorem mma (o : MxOps) : Statement (.mma o) := ofSlot rfl rfl
theorem mmaz (o : MxOps) : Statement (.mmaz o) := ofSlot rfl rfl
theorem mmag (o : MxOps) : Statement (.mmag o) := ofSlot rfl rfl
theorem mzero (o : MxOps) : Statement (.mzero o) := ofSlot rfl rfl
theorem mdrain (o : MxOps) : Statement (.mdrain o) := ofSlot rfl rfl
theorem mshape (o : MxOps) : Statement (.mshape o) := ofSlot rfl rfl
theorem mwin (o : MxOps) : Statement (.mwin o) := ofSlot rfl rfl
theorem mmaw (o : MxOps) : Statement (.mmaw o) := ofSlot rfl rfl
theorem mload (o : MxOps) : Statement (.mload o) := ofSlot rfl rfl
theorem zld (o : ZsOps) : Statement (.zld o) := ofSlot rfl rfl
theorem zadd (o : ZsOps) : Statement (.zadd o) := ofSlot rfl rfl
theorem zset (o : ZsOps) : Statement (.zset o) := ofSlot rfl rfl
theorem copy (o : ShOps) : Statement (.copy o) := ofSlot rfl rfl
theorem mcast (o : ShOps) : Statement (.mcast o) := ofSlot rfl rfl
theorem reduce (o : ShOps) : Statement (.reduce o) := ofSlot rfl rfl
theorem post (o : ShOps) : Statement (.post o) := ofSlot rfl rfl
theorem recallSeg (o : ShOps) : Statement (.recallSeg o) := ofSlot rfl rfl
theorem pushout (o : ShOps) : Statement (.pushout o) := ofSlot rfl rfl
theorem fill (o : ShOps) : Statement (.fill o) := ofSlot rfl rfl
theorem gthr (o : ShOps) : Statement (.gthr o) := ofSlot rfl rfl
theorem sctr (o : ShOps) : Statement (.sctr o) := ofSlot rfl rfl
theorem vxfer (o : ShOps) : Statement (.vxfer o) := ofSlot rfl rfl
theorem copyb (o : ShOps) : Statement (.copyb o) := ofSlot rfl rfl
theorem jcfg (o : JqOps) : Statement (.jcfg o) := ofSlot rfl rfl
theorem jord (o : JqOps) : Statement (.jord o) := ofSlot rfl rfl
theorem jvar (o : JqOps) : Statement (.jvar o) := ofSlot rfl rfl
theorem jmk (o : JqOps) : Statement (.jmk o) := ofSlot rfl rfl
theorem japp (o : JqOps) : Statement (.japp o) := ofSlot rfl rfl
theorem jite (o : JqOps) : Statement (.jite o) := ofSlot rfl rfl
theorem jres (o : JqOps) : Statement (.jres o) := ofSlot rfl rfl
theorem jexq (o : JqOps) : Statement (.jexq o) := ofSlot rfl rfl
theorem jcnt (o : JqOps) : Statement (.jcnt o) := ofSlot rfl rfl
theorem jsat (o : JqOps) : Statement (.jsat o) := ofSlot rfl rfl
theorem jexp (o : JqOps) : Statement (.jexp o) := ofSlot rfl rfl
theorem jref (o : JqOps) : Statement (.jref o) := ofSlot rfl rfl
theorem jdrf (o : JqOps) : Statement (.jdrf o) := ofSlot rfl rfl
theorem jgc (o : JqOps) : Statement (.jgc o) := ofSlot rfl rfl
theorem jstat (o : JqOps) : Statement (.jstat o) := ofSlot rfl rfl
theorem jclr (o : JqOps) : Statement (.jclr o) := ofSlot rfl rfl
theorem chunkGrant (loom : Nat) (eng : Engine) : Statement (.chunkGrant loom eng) := ofNone rfl
theorem chunkRetire (loom : Nat) (eng : Engine) : Statement (.chunkRetire loom eng) := ofNone rfl
theorem engineCommandComplete (loom : Nat) (eng : Engine) : Statement (.engineCommandComplete loom eng) := ofNone rfl
theorem partialSumArrival (loom : Nat) : Statement (.partialSumArrival loom) := ofNone rfl
theorem handlerStart (loom : Nat) : Statement (.handlerStart loom) := ofNone rfl
theorem spindleTransferComplete (loom : Nat) : Statement (.spindleTransferComplete loom) := ofNone rfl
theorem allocationComplete (loom : Nat) : Statement (.allocationComplete loom) := ofNone rfl
theorem overlayMaterialise (loom : Nat) : Statement (.overlayMaterialise loom) := ofNone rfl
theorem tagGrant (cluster tenancy : Nat) : Statement (.tagGrant cluster tenancy) := ofNone rfl
theorem tagFreed (cluster tenancy : Nat) (tag : BitVec 12) : Statement (.tagFreed cluster tenancy tag) := ofNone rfl
theorem arrivalUpdate (loom : Nat) : Statement (.arrivalUpdate loom) := ofNone rfl
theorem waitTimeout (loom seq : Nat) : Statement (.waitTimeout loom seq) := ofNone rfl
theorem refreshDeadline (loom bank group : Nat) : Statement (.refreshDeadline loom bank group) := ofNone rfl
theorem vaultTemperatureChange (loom band : Nat) : Statement (.vaultTemperatureChange loom band) := ofNone rfl
theorem sharedBankServe (loom : Nat) : Statement (.sharedBankServe loom) := ofNone rfl
theorem farReadCompletion (read : Nat) (status : FarStatus) : Statement (.farReadCompletion read status) := ofNone rfl
theorem farCompletionTimeout (read : Nat) : Statement (.farCompletionTimeout read) := ofNone rfl
theorem farWritePerform (stack : Nat) (accepted : Bool) : Statement (.farWritePerform stack accepted) := ofNone rfl
theorem peerAccessArrival (access : PeerAccess) : Statement (.peerAccessArrival access) := ofNone rfl
theorem reducePartnerTimeout (loom : Nat) : Statement (.reducePartnerTimeout loom) := ofNone rfl
theorem containment (loom : Nat) : Statement (.containment loom) := ofNone rfl
theorem loomReset (loom : Nat) : Statement (.loomReset loom) := ofNone rfl
theorem loomResetComplete (loom : Nat) : Statement (.loomResetComplete loom) := ofNone rfl
theorem launchBlockReadDone (launch : Nat) (status : FarStatus) : Statement (.launchBlockReadDone launch status) :=
  ofNone rfl
theorem launchBlockRefetch (launch : Nat) : Statement (.launchBlockRefetch launch) := ofNone rfl
theorem launchCopiesDone (launch : Nat) (status : FarStatus) : Statement (.launchCopiesDone launch status) := ofNone rfl
theorem launchStart (launch : Nat) : Statement (.launchStart launch) := ofNone rfl
theorem launchComplete (launch : Nat) : Statement (.launchComplete launch) := ofNone rfl
theorem watchedWordChange (tenancy : Nat) : Statement (.watchedWordChange tenancy) := ofNone rfl
theorem quantumExpiry (loom : Nat) : Statement (.quantumExpiry loom) := ofNone rfl
theorem fullSwitch (loom : Nat) : Statement (.fullSwitch loom) := ofNone rfl
theorem switchInComplete (loom : Nat) : Statement (.switchInComplete loom) := ofNone rfl
theorem spcWrite (tenancy : Nat) (value : DWord) : Statement (.spcWrite tenancy value) := ofNone rfl
theorem shalt (tenancy : Nat) (value : DWord) : Statement (.shalt tenancy value) := ofNone rfl
theorem snapgo (tenancy : Nat) (value : DWord) : Statement (.snapgo tenancy value) := ofNone rfl
theorem snapshotComplete (tenancy : Nat) (verifies : Nat) : Statement (.snapshotComplete tenancy verifies) := ofNone rfl
theorem sresume (tenancy : Nat) (value : DWord) : Statement (.sresume tenancy value) := ofNone rfl
theorem sresumeRelaunch (tenancy : Nat) : Statement (.sresumeRelaunch tenancy) := ofNone rfl
theorem registerWrite (tenancy : Nat) (offset : Nat) (value : DWord) : Statement (.registerWrite tenancy offset value) :=
  ofNone rfl
theorem dbgloomWrite (tenancy : Nat) (value : DWord) : Statement (.dbgloomWrite tenancy value) := ofNone rfl
theorem dbgresume (tenancy : Nat) (value : DWord) : Statement (.dbgresume tenancy value) := ofNone rfl
theorem compWrite (tenancy comparator : Nat) (value : DWord) : Statement (.compWrite tenancy comparator value) := ofNone rfl
theorem dumpgo (tenancy : Nat) (value : DWord) : Statement (.dumpgo tenancy value) := ofNone rfl
theorem dumpComplete (tenancy : Nat) : Statement (.dumpComplete tenancy) := ofNone rfl
theorem dumpAbandon (tenancy sent : Nat) : Statement (.dumpAbandon tenancy sent) := ofNone rfl
theorem fltack (tenancy : Nat) (value : DWord) : Statement (.fltack tenancy value) := ofNone rfl
theorem fltretry (tenancy : Nat) (value : DWord) : Statement (.fltretry tenancy value) := ofNone rfl
theorem fltend (tenancy : Nat) (value : DWord) : Statement (.fltend tenancy value) := ofNone rfl
theorem hostPostedWrite (write : HostWrite) : Statement (.hostPostedWrite write) := ofNone rfl
theorem hostReadRequest (tenancy addr size : Nat) (relaxed : Bool) : Statement (.hostReadRequest tenancy addr size relaxed) :=
  ofNone rfl
theorem functionLevelReset (tenancy : Nat) : Statement (.functionLevelReset tenancy) := ofNone rfl
theorem deviceReset : Statement .deviceReset := ofNone rfl
theorem deviceBoot (failures : List BootFailure) : Statement (.deviceBoot failures) := ofNone rfl
theorem bootRecordClear (unit : BootUnit) : Statement (.bootRecordClear unit) := ofNone rfl
theorem membershipSign (body : MembershipBody) (verifies : Nat) : Statement (.membershipSign body verifies) := ofNone rfl
theorem weightSet (loom tenancy : Nat) (weight : BitVec 8) : Statement (.weightSet loom tenancy weight) := ofNone rfl
theorem partitionAssign (tenancy : Nat) (clusters : List Nat) : Statement (.partitionAssign tenancy clusters) := ofNone rfl
theorem keySlotLoad (slot : BitVec 13) (key : BitVec 512) : Statement (.keySlotLoad slot key) := ofNone rfl
theorem domainJoin (domain : BitVec 16) (device : BitVec 12) : Statement (.domainJoin domain device) := ofNone rfl
theorem controllerRefreshEnd (loom bank : Nat) : Statement (.controllerRefreshEnd loom bank) := ofNone rfl

end Sys2Proof.Laws.SlotsReadBack
end

