-- ==== Sys2Proof/Laws/Safe.lean ====
section
/-!
SUPPORT. The canonical form of memory through the operations of the machine: what keeps `Safety.memorySafe`.
-/

namespace Sys2Proof.Safety
open Sys2Proof.Machine

/-! ## Parts -/

/-- Reset memory is canonical. -/
theorem loomSafe_reset : loomSafe Loom.reset = true := rfl
theorem imagesSafe_reset : imagesSafe Tenancy.reset = true := rfl
/-- Any loom of a safe state is safe. -/
theorem loomSafe_of {s : State} (h : memorySafe s = true) (l : Nat) : loomSafe (s.loom l) = true := by
  simp only [memorySafe, Bool.and_eq_true] at h
  simp only [State.loom, Tab.get]
  cases hf : Tab.find? s.looms l with
  | none => rfl
  | some x => exact Tab.all_find? (p := fun q => loomSafe q.2) h.1.2 hf
/-- Any tenancy of a safe state is safe. -/
theorem imagesSafe_of {s : State} (h : memorySafe s = true) (t : Nat) : imagesSafe (s.tenancy t) = true := by
  simp only [memorySafe, Bool.and_eq_true] at h
  simp only [State.tenancy, Tab.get]
  cases hf : Tab.find? s.tenancies t with
  | none => rfl
  | some x => exact Tab.all_find? (p := fun q => imagesSafe q.2) h.2 hf

/-! ## Updates of the state -/

/-- A loom replaced by a safe one. -/
theorem memorySafe_updLoom {s : State} (l : Nat) (f : Loom → Loom) (h : memorySafe s = true)
    (hf : loomSafe (s.loom l) = true → loomSafe (f (s.loom l)) = true) : memorySafe (s.updLoom l f) = true := by
  have hl := hf (loomSafe_of h l)
  simp only [memorySafe, Bool.and_eq_true] at h ⊢
  exact ⟨⟨h.1.1, Tab.all_put s.looms l _ (fun p => loomSafe p.2) h.1.2 hl⟩, h.2⟩
/-- A tenancy replaced by a safe one. -/
theorem memorySafe_updTenancy {s : State} (t : Nat) (f : Tenancy → Tenancy) (h : memorySafe s = true)
    (hf : imagesSafe (s.tenancy t) = true → imagesSafe (f (s.tenancy t)) = true) : memorySafe (s.updTenancy t f) = true := by
  have ht := hf (imagesSafe_of h t)
  simp only [memorySafe, Bool.and_eq_true] at h ⊢
  exact ⟨h.1, Tab.all_put s.tenancies t _ (fun p => imagesSafe p.2) h.2 ht⟩
/-- A sequencer holds no memory. -/
theorem memorySafe_updSeq {s : State} (l q : Nat) (f : Seq → Seq) (h : memorySafe s = true) :
    memorySafe (s.updSeq l q f) = true := memorySafe_updLoom l _ h id
theorem memorySafe_updMe {s : State} (f : Seq → Seq) (h : memorySafe s = true) : memorySafe (s.updMe f) = true := by
  unfold State.updMe
  split
  · exact memorySafe_updTenancy _ _ h id
  · exact memorySafe_updSeq _ _ _ h
theorem memorySafe_result {s : State} (d : Dest) (lat : Nat) (mask value : VReg) (h : memorySafe s = true) :
    memorySafe (s.result d lat mask value) = true := memorySafe_updMe _ h
theorem memorySafe_resultS {s : State} (d lat : Nat) (x : DWord) (h : memorySafe s = true) :
    memorySafe (s.resultS d lat x) = true := memorySafe_updMe _ h
theorem memorySafe_raise {s : State} (f : BitVec 5) (h : memorySafe s = true) : memorySafe (s.raise f) = true :=
  memorySafe_updMe _ h
/-- Issue, turn, cycle and the other tables hold no memory. -/
theorem memorySafe_issue {s : State} (k : Option Issue) (h : memorySafe s = true) : memorySafe { s with issue := k } = true := h
theorem memorySafe_free {s : State} (n : Nat) (h : memorySafe s = true) : memorySafe { s with free := n } = true := h
theorem memorySafe_waitFor {s : State} (w : Wait) (h : memorySafe s = true) : memorySafe (s.waitFor w) = true :=
  memorySafe_updMe (s := s) _ h
/-- Records and counts hold none. -/
theorem memorySafe_record {s : State} (t : Nat) (r : FaultRecord) (h : memorySafe s = true) :
    memorySafe (s.record t r) = true := h
theorem memorySafe_recordAt {s : State} (l t agent lane stop outc code : Nat) (done : BitVec 14) (pick step : Nat) (x : DWord)
    (id : Option Nat) (h : memorySafe s = true) :
    memorySafe (s.recordAt l t agent lane stop outc code done pick step x id) = true := memorySafe_record _ _ h
theorem memorySafe_count {s : State} (l t k n : Nat) (h : memorySafe s = true) : memorySafe (s.count l t k n) = true := by
  unfold State.count
  split
  · exact h
  · exact memorySafe_updLoom _ _ h id

/-! ## Writes -/

/-- Writing a vault keeps its loom safe. -/
theorem loomSafe_vault {x : Loom} (a : Nat) (bs : List Byte) (h : loomSafe x = true) :
    loomSafe { x with vault := x.vault.writeBytes a bs } = true := by
  simp only [loomSafe, Bool.and_eq_true] at h ⊢
  exact ⟨Memory.wf_writeBytes a bs h.1, h.2⟩
/-- Overlays after one has been set. -/
theorem overlays_put {l : List Overlay} (o : Overlay) (h : l.all (fun o => Memory.wf o.data) = true)
    (ho : Memory.wf o.data = true) : (putOverlay l o).all (fun o => Memory.wf o.data) = true := by
  induction l with
  | nil => simp [putOverlay, ho]
  | cons p r ih =>
    simp only [List.all_cons, Bool.and_eq_true] at h
    simp only [putOverlay]
    split
    · simp only [List.all_cons, Bool.and_eq_true]; exact ⟨ho, h.2⟩
    · split
      · simp only [List.all_cons, Bool.and_eq_true]; exact ⟨ho, h.1, h.2⟩
      · simp only [List.all_cons, Bool.and_eq_true]; exact ⟨h.1, ih h.2⟩
/-- The record of a launch replaced by a safe one. -/
theorem loomSafe_updRun {x : Loom} (id : Nat) (f : LoomRun → LoomRun) (h : loomSafe x = true)
    (hf : ∀ r, runSafe r = true → runSafe (f r) = true) : loomSafe (x.updRun id f) = true := by
  unfold Loom.updRun
  split
  · rename_i r hr
    simp only [loomSafe, Bool.and_eq_true] at h ⊢
    exact ⟨h.1, Tab.all_put x.runs id _ (fun p => runSafe p.2) h.2 (hf r (Tab.all_find? (p := fun p => runSafe p.2) h.2 hr))⟩
  · exact h
/-- One line of a canonical memory, as a memory of its own. -/
theorem wf_lineOf {m : Memory} (line : Nat) (h : Memory.wf m = true) : Memory.wf (lineOf m line) = true := by
  have key : ∀ c ∈ List.filter (fun c => decide (c.1 / 64 = line)) m, c.1 / 64 = line := fun c hc => by
    simpa using (List.mem_filter.mp hc).2
  have hw := Memory.wf_filter (fun c => decide (c.1 / 64 = line)) h
  unfold lineOf
  revert key hw
  generalize List.filter (fun c => decide (c.1 / 64 = line)) m = l
  intro key hw
  rw [Memory.wf_iff] at hw ⊢
  refine ⟨?_, ?_⟩
  · have hr := hw.1
    clear hw
    induction l with
    | nil => rfl
    | cons c r ih =>
      have hc := (Tab.rising_cons c.1 c.2 r).mp hr
      have h0 := key c List.mem_cons_self
      rw [List.map_cons]
      refine (Tab.rising_cons _ _ _).mpr ⟨fun p hp => ?_, ih (fun d hd => key d (List.mem_cons_of_mem _ hd)) hc.2⟩
      obtain ⟨d, hd, rfl⟩ := List.mem_map.mp hp
      have h1 := hc.1 d hd
      have h2 := key d (List.mem_cons_of_mem _ hd)
      show c.1 - 64 * line < d.1 - 64 * line
      omega
  · rw [List.all_map]
    exact hw.2
/-- A cell written keeps the record of its launch safe. -/
theorem runSafe_setCell {r : LoomRun} (seg tag off : Nat) (b : Byte) (h : runSafe r = true) :
    runSafe (r.setCell seg tag off b) = true := by
  unfold LoomRun.setCell
  split
  · exact h
  · rename_i g hg
    simp only [runSafe, Bool.and_eq_true] at h
    have hgw : Memory.wf g.data = true := Tab.all_find? (p := fun p => Memory.wf p.2.data) h.1 hg
    split
    · simp only [runSafe, Bool.and_eq_true]
      exact ⟨Tab.all_put r.segs seg _ (fun p => Memory.wf p.2.data) h.1 (Memory.wf_write off b hgw), h.2⟩
    · simp only [runSafe, Bool.and_eq_true]
      have kept : ∀ o : Overlay, Memory.wf o.data = true → Memory.wf (g.written o).data = true := fun o ho => by
        unfold Segment.written
        split
        · exact wf_lineOf _ hgw
        · exact ho
      refine ⟨h.1, overlays_put _ h.2 (Memory.wf_write _ b (kept _ ?_))⟩
      cases ho : r.overlay seg tag (off / 64) with
      | none => exact wf_lineOf _ hgw
      | some o => exact List.all_eq_true.mp h.2 o (List.mem_of_find?_eq_some ho)
theorem runSafe_setCells {r : LoomRun} (seg tag off : Nat) (bs : List Byte) (h : runSafe r = true) :
    runSafe (r.setCells seg tag off bs) = true := by
  induction bs generalizing r off with
  | nil => exact h
  | cons b rest ih => exact ih (off + 1) (runSafe_setCell seg tag off b h)
theorem runSafe_setPoison {r : LoomRun} (seg tag line : Nat) (p : Bool) (h : runSafe r = true) :
    runSafe (r.setPoison seg tag line p) = true := by
  unfold LoomRun.setPoison
  split
  · exact h
  · rename_i g hg
    simp only [runSafe, Bool.and_eq_true] at h
    have hgw : Memory.wf g.data = true := Tab.all_find? (p := fun p => Memory.wf p.2.data) h.1 hg
    split
    · simp only [runSafe, Bool.and_eq_true]
      exact ⟨Tab.all_put r.segs seg _ (fun p => Memory.wf p.2.data) h.1 hgw, h.2⟩
    · split
      · rename_i o ho
        simp only [runSafe, Bool.and_eq_true]
        exact ⟨h.1, overlays_put _ h.2 ((List.all_eq_true (p := fun o => Memory.wf o.data)).mp h.2 o
          (List.mem_of_find?_eq_some ho))⟩
      · simp only [runSafe, Bool.and_eq_true]; exact h
/-- A run of cells written keeps it safe. -/
theorem runSafe_write {r : LoomRun} (seg tag off : Nat) (bs : List Byte) (h : runSafe r = true) :
    runSafe (r.write seg tag off bs) = true := by
  unfold LoomRun.write
  have h1 := runSafe_setCells seg tag off bs h
  revert h1
  generalize r.setCells seg tag off bs = u
  generalize wholeLines off bs.length = ls
  intro h1
  induction ls generalizing u with
  | nil => exact h1
  | cons k rest ih => exact ih _ (runSafe_setPoison seg tag k false h1)
/-- A write to a segment keeps every memory canonical. -/
theorem memorySafe_segWrite {s : State} (l id seg tag off : Nat) (bs : List Byte) (h : memorySafe s = true) :
    memorySafe (s.segWrite l id seg tag off bs) = true :=
  memorySafe_updLoom _ _ h (fun hl => loomSafe_updRun id _ hl (fun _ hr => runSafe_write seg tag off bs hr))
/-- A fold of what keeps every memory canonical keeps it. -/
theorem memorySafe_foldl {α : Type} (f : State → α → State) (xs : List α)
    (hf : ∀ s x, memorySafe s = true → memorySafe (f s x) = true) : ∀ s, memorySafe s = true → memorySafe (xs.foldl f s) = true := by
  induction xs with
  | nil => exact fun _ h => h
  | cons x rest ih => exact fun s h => ih _ (hf s x h)
/-- The memory of a far target is canonical, and may be replaced by a canonical one. -/
theorem wf_farMemory {s : State} (kind peer : Nat) (h : memorySafe s = true) : Memory.wf (s.farMemory kind peer) = true := by
  simp only [memorySafe, Bool.and_eq_true] at h
  unfold State.farMemory
  split
  · exact h.1.1.1.1
  · split
    · unfold Tab.get
      cases hf : Tab.find? s.peers peer with
      | none => rfl
      | some m => exact Tab.all_find? (p := fun p => Memory.wf p.2) h.1.1.2 hf
    · exact h.1.1.1.2
theorem memorySafe_setFarMemory {s : State} (kind peer : Nat) {m : Memory} (h : memorySafe s = true) (hm : Memory.wf m = true) :
    memorySafe (s.setFarMemory kind peer m) = true := by
  simp only [memorySafe, Bool.and_eq_true] at h
  unfold State.setFarMemory
  split
  · simp only [memorySafe, Bool.and_eq_true]; exact ⟨⟨⟨⟨hm, h.1.1.1.2⟩, h.1.1.2⟩, h.1.2⟩, h.2⟩
  · split
    · simp only [memorySafe, Bool.and_eq_true]
      exact ⟨⟨⟨h.1.1.1, Tab.all_put s.peers peer m (fun p => Memory.wf p.2) h.1.1.2 hm⟩, h.1.2⟩, h.2⟩
    · simp only [memorySafe, Bool.and_eq_true]; exact ⟨⟨⟨⟨h.1.1.1.1, hm⟩, h.1.1.2⟩, h.1.2⟩, h.2⟩
theorem memorySafe_setFarPoison {s : State} (kind peer line : Nat) (p : Bool) (h : memorySafe s = true) :
    memorySafe (s.setFarPoison kind peer line p) = true := by
  unfold State.setFarPoison
  split
  · exact h
  · split
    · exact h
    · exact h
theorem memorySafe_takeLine {s : State} (kind peer : Nat) (key : BitVec 512) (line : Nat) (h : memorySafe s = true) :
    memorySafe (s.takeLine kind peer key line) = true := by
  unfold State.takeLine
  dsimp only
  split
  · exact h
  · exact memorySafe_setFarMemory kind peer h (Memory.wf_writeBytes _ _ (wf_farMemory kind peer h))
/-- A far write that reaches its target, or sets out, keeps every memory canonical. -/
theorem memorySafe_farStore {s : State} (kind peer : Nat) (key : BitVec 512) (a : Nat) (bs : List Byte) (p : Bool)
    (h : memorySafe s = true) : memorySafe (s.farStore kind peer key a bs p) = true := by
  have h1 : memorySafe (if kind = 3 then s else (linesOf a bs.length).foldl (fun s k => s.takeLine kind peer key k) s) = true := by
    split
    · exact h
    · exact memorySafe_foldl _ _ (fun s k hs => memorySafe_takeLine kind peer key k hs) s h
  have h2 := memorySafe_setFarMemory kind peer h1 (Memory.wf_writeBytes a bs (wf_farMemory kind peer h1))
  unfold State.farStore
  dsimp only
  split
  · exact memorySafe_foldl _ _ (fun s k hs => memorySafe_setFarPoison kind peer k true hs) _ h2
  · exact memorySafe_foldl _ _ (fun s k hs => memorySafe_setFarPoison kind peer k false hs) _ h2
theorem memorySafe_countFar {s : State} (l t kind : Nat) (w : Bool) (n : Nat) (h : memorySafe s = true) :
    memorySafe (s.countFar l t kind w n) = true := memorySafe_count _ _ _ _ h
theorem memorySafe_sendFar {s : State} (w : FarWrite) (h : memorySafe s = true) : memorySafe (s.sendFar w) = true := by
  have perform := memorySafe_farStore w.kind w.peer w.key w.addr w.bytes w.poisoned h
  have counted : memorySafe ((s.performFar w).countWrite w) = true := by
    unfold State.countWrite State.performFar
    split
    · exact perform
    · exact memorySafe_countFar _ _ _ _ _ perform
  unfold State.sendFar
  split
  · unfold State.hostStore
    dsimp only
    split
    · exact memorySafe_recordAt _ _ _ _ _ _ _ _ _ _ _ _ counted
    · exact counted
  · exact h
/-- So do a write to a shared bank, and the free bytes that a dropped command leaves (R323). -/
theorem memorySafe_bankWrite {s : State} (l id t : Nat) (w : DWord) (bs : List Byte) (h : memorySafe s = true) :
    memorySafe (s.bankWrite l id t w bs) = true :=
  memorySafe_updLoom _ _ h (fun hl => loomSafe_vault _ _ hl)
theorem memorySafe_undefine {s : State} (l : Nat) (c : Cmd) (rs : List Reach) (h : memorySafe s = true) :
    memorySafe (s.undefine l c rs) = true := by
  refine memorySafe_foldl _ rs (fun s r hs => ?_) s h
  split
  · exact memorySafe_foldl _ _ (fun u off hu => memorySafe_segWrite _ _ _ _ _ _ (memorySafe_free _ hu)) s hs
  · dsimp only
    split
    · exact hs
    · exact memorySafe_bankWrite _ _ _ _ _ (memorySafe_free _ hs)
  · exact memorySafe_sendFar _ (memorySafe_free _ hs)
  · exact hs
/-- The holding back of a fence (R201) touches none. -/
theorem memorySafe_ordered {s : State} (x : Slot) (h : memorySafe s = true) : memorySafe (s.ordered x) = true := by
  have hold : ∀ (u : State), memorySafe u = true →
      memorySafe (if (slotHoldsBack x).classes = 0#16 then u else
        (u.drawTime .fence).2.updMe (fun q => { q with
          fences := q.fences.filter (fun f => s.cycle < f.2) ++ [(slotHoldsBack x, s.cycle + (u.drawTime .fence).1)] })) = true := by
    intro u hu
    split
    · exact hu
    · exact memorySafe_updMe _ (memorySafe_free _ hu)
  refine hold _ ?_
  split
  · dsimp only
    split
    · exact memorySafe_updMe _ h
    · exact h
  · exact h

end Sys2Proof.Safety
end

