-- ==== Sys2Proof/Tests/Slice0.lean ====
section
/-!
SUPPORT. Tests: words of the manual's encodings, ill-formed terms that the checks refuse, witnesses of the statements'
hypotheses, and single steps with results worked out from the manual.
-/

namespace Sys2Proof.Tests
open Sys2Proof.Machine Sys2Proof.Claims

-- One theorem at a time: the kernel's evaluations wait for each other otherwise.
set_option Elab.async false

/-! ## Small states -/

/-- A slot about to issue, in sequencer 0 of loom 0 (log 21). -/
def base : State := State.reset.withFetchWord 32 0x02187001
/-- Change the loom of `base`, its launch, or its sequencer. -/
def onLoom (f : Loom → Loom) (s : State) : State := s.updLoom 0 f
def onRun (f : LoomRun → LoomRun) (s : State) : State := s.updLoom 0 (fun l => l.updRun 0 f)
def onSeq (f : Seq → Seq) (s : State) : State := s.updSeq 0 0 f
def onIssue (f : Issue → Issue) (s : State) : State := s.updIssue f
def onTenancy (f : Tenancy → Tenancy) (s : State) : State := s.updTenancy 0 f
/-- Give the sequencer its scalar registers. -/
def withS (x : Tab DWord) : State → State := onSeq (fun q => { q with s := x })
def withV (x : Tab VReg) : State → State := onSeq (fun q => { q with v := x })
/-- A resident segment of 4,096 bytes, with bytes. -/
def seg4k (data : Memory) : Segment :=
  { size := 4096, tagged := false, shared := false, readonly := false, zeroed := true, state := .resident, home := 0,
    ref := false, pins := 0, data := data, poison := [] }
/-- Declare segments of the launch. -/
def withSegs (x : Tab Segment) : State → State := onRun (fun r => { r with segs := x })
/-- What a step of a placed word leaves. -/
noncomputable def after {α : Type} (s : State) (w : Nat) (f : State → α) : Option α :=
  match step (s.withFetchWord 32 w) with
  | .next t => some (f t)
  | _ => none
/-- The results in flight of sequencer 0: landing step, destination, low 64 bits. -/
def flights (t : State) : List (Nat × Dest × DWord) :=
  (t.seq 0 0).flight.map (fun l => (l.step, l.dest, l.value.extractLsb' 0 64))
/-- The free fields of an instruction's word: without lent bits the engines' are zero. -/
def noLent : EngLent := ⟨0#8, false, false⟩

/-! ## Decoding: words written out from the encodings of spec/07 -/

-- H | OP 30:25 | D 24:19 | A 18:13 | I 12 | imm12: add s3, s3, 1, of the worked example
theorem test_decode_sa : decodeSlot .sa 0x02187001#32 none = .ok (.addImm ⟨false, 3#6, 3#6, 1#22⟩) := by rfl
-- segq s10, 1
theorem test_decode_segq : decodeSlot .sa 0x66501001#32 none = .ok (.segqImm ⟨false, 10#6, 1#22⟩) := by rfl
-- H | OP | W 24:23 | T 22:20 | D 19:15 | A 14:8 | B 7:3 | G 2:0
theorem test_decode_va : decodeSlot .va 0x0301A838#32 none = .ok (.fadd ⟨false, 2#2, 0#3, 3#5, 0x28#7, 7#5, 0#3, none⟩) := by rfl
-- H | OP | W 24:23 | T 22:21 | D 20:14 | A 13:7 | B 6:0
theorem test_decode_fn : decodeSlot .fn 0x03014280#32 none = .ok (.frcp ⟨false, 2#2, 0#2, 5#7, 5#7, 0#7, none⟩) := by rfl
theorem test_decode_so : decodeSlot .so 0x02010250#32 none = .ok (.scxd ⟨false, 0#2, 0#3, 8#7, 9#7, 2#3, 0#3, none⟩) := by rfl
theorem test_decode_load : decodeSlot .ma 0x0A0C0000#32 none = .ok (.lw ⟨false, 3#7, 0#12, 0#6, 0#6, 0#4⟩) := by rfl
theorem test_decode_store : decodeSlot .ma 0x140C0400#32 none = .ok (.sw ⟨false, 3#7, 1#12, 0#6, 0#6, 0#4⟩) := by rfl
theorem test_decode_vault : decodeSlot .mb 0x5A3062C0#32 none = .ok (.vld ⟨false, 12#7, 3#5, 5#6, 2#2, 0#4⟩) := by rfl
theorem test_decode_mx : decodeSlot .mx 0x048028CB#32 none =
    .ok (.mmaz ⟨false, 2#3, 0#3, 0#3, 10#6, 12#6, 11#4, noLent⟩) := by rfl
theorem test_decode_zs : decodeSlot .zs 0x84800000#32 none = .ok (.zadd ⟨true, 2#3, 0#6, 0#6⟩) := by rfl
theorem test_decode_sh : decodeSlot .sh 0x0220A319#32 none = .ok (.copy ⟨false, 4#6, 5#6, 6#6, 1#3, 9#4, noLent⟩) := by rfl
theorem test_decode_jq : decodeSlot .jq 0x0C614584#32 none = .ok (.jite ⟨false, 12#6, 10#6, 11#6, 0#4, 4#3, noLent⟩) := by rfl
theorem test_decode_trap : decodeSlot .cf 0x2000002A#32 none = .ok (.trap 42#8) := by rfl
theorem test_decode_arrive : decodeSlot .cf 0x16083000#32 none = .ok (.arrive 4#8 1#4) := by rfl
theorem test_decode_waitw : decodeSlot .cf 0x34084000#32 none = .ok (.waitw 1#6 2#6) := by rfl
theorem test_decode_rep : decodeSlot .cf 0x12040420#32 none = .ok (.rep 4#10 2#4) := by rfl
theorem test_decode_dtwait : decodeSlot .cf 0x1A040000#32 none = .ok (.dtwait 2#8) := by rfl
theorem test_table_word : decodeTableWord 32 0x02187001 = some (.addImm ⟨false, 3#6, 3#6, 1#22⟩) := by rfl

/-! ## Well-formedness: an ill-formed term for each check -/

theorem smoke_wf : Instr.wf (.addImm ⟨false, 3#6, 3#6, 1#22⟩) = true ∧ Instr.wf (.containment 1279) = true := by decide
theorem smoke_movk : Instr.wf (.movk ⟨false, 1#6, 0x010000#22⟩) = false := by decide
theorem smoke_numbers : Instr.wf (.rdsys ⟨false, 1#6, 6#12⟩) = false ∧ Instr.wf (.whoami ⟨false, 1#6, 8#12⟩) = false ∧
    Instr.wf (.lidx ⟨false, 1#6, 6#12⟩) = false ∧ Instr.wf (.wrsys ⟨false, 1#6, 0#12⟩) = false := by decide
theorem smoke_spawn : Instr.wf (.spawn 0#3 0#6 9#4 0#22) = false ∧ Instr.wf (.spawn 0#3 60#6 5#4 0#22) = false := by decide
theorem smoke_cqfill : Instr.wf (.cqfill 0#2 0#12 0#6 16#5) = false := by decide
theorem smoke_vector : Instr.wf (.fadd ⟨false, 0#2, 5#3, 0#5, 0#7, 0#5, 0#3, none⟩) = false ∧
    Instr.wf (.iadd ⟨false, 0#2, 6#3, 0#5, 96#7, 0#5, 0#3, none⟩) = false := by decide
theorem smoke_fn : Instr.wf (.frcp ⟨false, 3#2, 0#2, 0#7, 0#7, 0#7, none⟩) = false ∧
    Instr.wf (.frcp ⟨false, 0#2, 0#2, 96#7, 0#7, 0#7, none⟩) = false ∧
    Instr.wf (.frcp ⟨false, 0#2, 0#2, 0#7, 0#7, 1#7, none⟩) = false ∧
    Instr.wf (.frcp ⟨false, 0#2, 0#2, 0#7, 0#7, 0#7, some ⟨24#5, false⟩⟩) = false := by decide
theorem smoke_sort : Instr.wf (.scx2d ⟨false, 0#2, 0#3, 95#7, 0#7, 0#3, 0#3, none⟩) = false ∧
    Instr.wf (.scx2d ⟨false, 0#2, 0#3, 0#7, 0#7, 1#3, 0#3, none⟩) = false ∧
    Instr.wf (.scxd ⟨false, 0#2, 5#3, 0#7, 0#7, 0#3, 0#3, none⟩) = false := by decide
theorem smoke_memory : Instr.wf (.lw ⟨false, 64#7, 0#12, 0#6, 0#6, 0#4⟩) = false ∧
    Instr.wf (.acas ⟨false, 63#7, 0#12, 0#6, 0#6, 0#4⟩) = false ∧ Instr.wf (.svg ⟨false, 31#7, 0#12, 0#6, 0#6, 0#4⟩) = false ∧
    Instr.wf (.lvx ⟨false, 96#7, 0#12, 0#6, 0#6, 0#4⟩) = false ∧ Instr.wf (.lacq ⟨false, 0#7, 0#12, 0#6, 6#3, 0#4⟩) = false ∧
    Instr.wf (.fence ⟨false, 0#16, 0#3, 3#2⟩) = false ∧ Instr.wf (.vldr ⟨false, 96#7, 0#6, 0#4⟩) = false := by decide
theorem smoke_vault : Instr.wf (.vpre ⟨false, 0#5, 1#8, 0#4⟩) = false ∧
    Instr.wf (.vld ⟨false, 31#7, 0#5, 0#6, 3#2, 0#4⟩) = false := by decide
theorem smoke_engines : Instr.wf (.mmag ⟨false, 0#3, 0#3, 0#3, 63#6, 0#6, 0#4, noLent⟩) = false ∧
    Instr.wf (.mzero ⟨false, 0#3, 1#3, 0#3, 0#6, 0#6, 0#4, noLent⟩) = false ∧
    Instr.wf (.mdrain ⟨false, 0#3, 6#3, 0#3, 0#6, 0#6, 0#4, noLent⟩) = false ∧
    Instr.wf (.mwin ⟨false, 0#3, 0#3, 0#3, 0#6, 61#6, 0#4, noLent⟩) = false ∧ Instr.wf (.zset ⟨false, 0#3, 0#6, 1#6⟩) = false ∧
    Instr.wf (.recallSeg ⟨false, 0#6, 1#6, 0#6, 0#3, 0#4, noLent⟩) = false ∧
    Instr.wf (.copy ⟨false, 0#6, 0#6, 0#6, 6#3, 0#4, noLent⟩) = false ∧
    Instr.wf (.post ⟨false, 0#6, 0#6, 63#6, 0#3, 0#4, noLent⟩) = false ∧
    Instr.wf (.jgc ⟨false, 0#6, 1#6, 0#6, 0#4, 0#3, noLent⟩) = false ∧
    Instr.wf (.jcfg ⟨false, 0#6, 60#6, 0#6, 0#4, 0#3, noLent⟩) = false := by decide
theorem smoke_agents : Instr.wf (.containment 1280) = false ∧ Instr.wf (.chunkGrant 1344 .shuttle) = false ∧
    Instr.wf (.waitTimeout 0 8) = false ∧ Instr.wf (.shalt 64 1#64) = false ∧ Instr.wf (.tagGrant 80 0) = false ∧
    Instr.wf (.farWritePerform 5 true) = false ∧ Instr.wf (.compWrite 0 16 0#64) = false ∧
    Instr.wf (.partitionAssign 0 [80]) = false ∧ Instr.wf (.refreshDeadline 0 20 0) = false := by decide

/-! ## Witnesses: states and operands that meet the hypotheses of each statement -/

/-- An empty vector slot: width 256, binary32. -/
def vec0 : VecOps := ⟨false, 0#2, 0#3, 0#5, 0#7, 0#5, 0#3, none⟩

-- SlotsDecodeAsEncoded, DecodedSlotsAreLegal
theorem witness_encoding : Instr.wf (.add ⟨true, 63#6, 63#6, 63#6⟩) = true ∧ .sa ∈ Instr.lanes (.add ⟨true, 63#6, 63#6, 63#6⟩) ∧
    Instr.wf (.fma { vec0 with lent := some ⟨true, 31#5, 13#4⟩ }) = true ∧
    .vc ∈ Instr.lanes (.fma { vec0 with lent := some ⟨true, 31#5, 13#4⟩ }) := by decide +kernel
theorem witness_decoded : decodeSlot .cf 0x2000002A#32 none = .ok (.trap 42#8) := by rfl
-- StepRunsTheDecodedSlot
theorem witness_step_slot : ∃ k x, base.issue = some k ∧ k.todo = [x] ∧
    decodeSlot x.lane x.word x.lent = .ok (.addImm ⟨false, 3#6, 3#6, 1#22⟩) := ⟨_, _, rfl, rfl, rfl⟩
/-- `base` with its pick done: nothing is in progress. -/
def idle : State := onLoom (fun l => { l with quantumEnds := 100 }) { base with issue := none, turn := Turn.start }
/-- Every merge of the cycle has had its turn. -/
def merged : State := { idle with turn := { Turn.start with agent := 1344 } }
-- StepBringsEventsInOrder: each of its five cases
theorem witness_step_order :
    idle.takeSlot = none ∧ (({ idle with arrivals := [(0, .deviceReset)] } : State).takeArrival).isSome = true ∧
    Instr.slot .deviceReset = none ∧ idle.takeArrival = none ∧
    (onTenancy (fun t => { t with dump := some ⟨0, 0, [], [], true, false, 0#64, [], 0, []⟩ }) idle).dueEvent.isSome = true ∧
    idle.dueEvent = none ∧ idle.nextIssuer = some (.loom 0) ∧ State.reset.dueEvent = none ∧ State.reset.nextIssuer = none ∧
    State.reset.lateEvent = none :=
  ⟨rfl, rfl, rfl, rfl, rfl, rfl, rfl, rfl, rfl, rfl⟩
theorem witness_step_late :
    let s := onLoom (fun l => { l with landing := [⟨1, 0, 0#64⟩] }) merged
    s.dueEvent.isNone = true ∧ s.nextIssuer = none ∧ s.lateEvent.isSome = true := ⟨rfl, rfl, rfl⟩
-- StepKeepsMemoryCanonical
theorem witness_memory : Safety.memorySafe base = true ∧ after State.reset 0x02187001 Safety.memorySafe = some true := by decide +kernel
-- ResultWaitsForItsStep
theorem witness_result : base.me.group.find? (fun g => g.dest == .s 1) = none := by decide +kernel
/-- A sequencer with a result for s1 of each of steps 0 and 5. -/
def flying : Seq :=
  { Seq.reset with flight := [⟨0, .s 1, BitVec.allOnes 1024, 7#1024, .yes, 0, 0, 0⟩,
                              ⟨5, .s 1, BitVec.allOnes 1024, 8#1024, .yes, 0, 0, 0⟩] }
-- ResultsLandInStepOrder: the landing at step 0 is due and last; s2, v1 and q1 have none due
theorem witness_landing : flying.dueReturned = true ∧ (flying.flight.map (fun l => decide (l.step ≤ flying.steps))) = [true, false] ∧
    flying.flight.all (fun m => m.dest != .s 2 && m.dest != .v 1 && m.dest != .q 1) = true := by decide +kernel
-- ActiveSequencerStartsFresh, at the greatest number of arguments
theorem witness_arguments : (List.replicate 63 1#64).length ≤ 63 := by decide +kernel
-- RegisterSlotsChangeOnlyTheirResults: each of its lanes
theorem witness_register_slots : Instr.lanes (.add ⟨false, 0#6, 0#6, 0#6⟩) = [.sa, .sb] ∧
    Instr.lanes (.fadd vec0) = [.va, .vb, .vc] ∧ Instr.lanes (.frcp ⟨false, 0#2, 0#2, 0#7, 0#7, 0#7, none⟩) = [.fn] ∧
    Instr.lanes (.scxd ⟨false, 0#2, 0#3, 0#7, 0#7, 0#3, 0#3, none⟩) = [.so] ∧
    Instr.wf (.add ⟨false, 0#6, 0#6, 0#6⟩) = true ∧ Instr.wf (.fadd vec0) = true ∧
    Instr.wf (.frcp ⟨false, 0#2, 0#2, 0#7, 0#7, 0#7, none⟩) = true ∧
    Instr.wf (.scxd ⟨false, 0#2, 0#3, 0#7, 0#7, 0#3, 0#3, none⟩) = true := by decide +kernel
-- Binary64InstructionsRoundUnderFrm: a quiet and a signalling NaN; a number
theorem witness_nan : (0x7FF8000000000001#64).extractLsb' 52 11 = 0x7FF#11 ∧ (0x7FF8000000000001#64).extractLsb' 0 52 ≠ 0#52 ∧
    (0x7FF8000000000001#64).getLsbD 51 = true ∧ (0x7FF0000000000001#64).extractLsb' 0 52 ≠ 0#52 ∧
    (0x7FF0000000000001#64).getLsbD 51 = false ∧ (binary64.decode 0x3FF0000000000000).isNan = false ∧
    (0x7FF0000000000001#64).extractLsb' 52 11 = 0x7FF#11 := by decide +kernel
-- StateReadsReturnWhatStands: a sequencer of a loom; each side of b at 25; a declared segment and one that is not
theorem witness_state_reads : base.cur.stream = none ∧ base.myRun.isSome = true ∧ (25#64).extractLsb' 0 5 = 25#5 ∧
    base.me.group = [] ∧ (26#64).extractLsb' 0 5 = 26#5 ∧ (57#64).getLsbD 5 = true ∧ Tab.find? [(1, seg4k [])] 1 = some (seg4k []) ∧
    Tab.find? [(1, seg4k [])] 2 = none := by decide +kernel
-- VectorIntegerElementsGiveTheirTable: idot4's type
theorem witness_dot : (base.vecSlot { vec0 with t := 5#3 }).size = 32 := by decide +kernel
-- VectorFloatElementsGiveTheirTable: a zero, an infinity and a NaN to round; bits that are dropped and none; two numbers in order, and
-- two that are equal
theorem witness_float : (base.vecSlot vec0).t < 3 ∧ binary32.decode 0x80000000 = .fin true 0 (-149) ∧
    binary32.decode 0xFF800000 = .inf true ∧ binary32.decode 0x7F800001 = .nan true ∧ 5 % 2 ^ 1 ≠ 0 ∧ 5 % 2 ^ 0 = 0 ∧
    Claims.below (.fin false 0 0) (.inf false) ∧ ¬Claims.below (.inf false) (.inf false) ∧
    (Machine.Num.nan true).isNan = true ∧ (Machine.Num.inf true).isNan = false := by
  refine ⟨by decide +kernel, by decide +kernel, by decide +kernel, by decide +kernel, by decide, by decide, rfl, ?_, rfl, rfl⟩
  exact fun h => Bool.noConfusion h.1
-- RepresentableValuesRoundToThemselves: the greatest codes of the first and last format
theorem witness_representable : (0xFF7FFFFF : Nat) < 2 ^ typeSize 0 ∧ 0xFF7FFFFF % (typeFmt 0).signBit ≤ (typeFmt 0).maxCode ∧
    (0 : Nat) < 2 ^ typeSize 4 ∧ 0 % (typeFmt 4).signBit ≤ (typeFmt 4).maxCode := by decide +kernel
-- VectorMovesGiveTheirTable: vclass of a zero of either sign, a NaN and an infinity
theorem witness_class : (base.vecSlot vec0).t < 3 ∧ binary32.decode 0x80000000 = .fin true 0 (-149) ∧
    (binary32.decode 0x7FC00000).isNan = true ∧ binary32.decode 0xFF800000 = .inf true := by decide +kernel
-- PredicatesGiveTheirTable
theorem witness_predicate : vec0.w ≠ 3#2 ∧ ((typeFmt 4).decode 0x7F).isNan = true ∧ ((typeFmt 0).decode 0).isNan = false := by decide +kernel
-- ReductionsAndScansGiveTheirSums: an integer add; every element inactive under q1
theorem witness_reduction : vec0.w ≠ 3#2 ∧ vec0.b.toNat < 8 ∧ isFpType 7 = false ∧
    (base.vecSlot { vec0 with t := 7#3 }).sat = false ∧ (base.vecSlot { vec0 with t := 7#3, g := 1#3 }).actives = 0 ∧
    (base.vecSlot vec0).n = 2 ^ 3 ∧ (base.vecSlot vec0).t < 3 ∧ (base.vecSlot { vec0 with g := 1#3 }).actives = 0 := by decide +kernel
-- ConversionsGiveTheirTable: integer to integer, float to float, float to integer, a scale of 0xFF
theorem witness_conversion : isFpType 5 = false ∧ isFpType 0 = true ∧ isFpType 1 = true ∧ (base.vecSlot vec0).t = 0 ∧
    (base.vecSlot { vec0 with t := 5#3 }).t = 5 ∧ ((typeFmt 0).decode 0x7F800001).isNan = true := by decide +kernel
theorem witness_dequantise : ((withV [(0, (0xFF#8 ++ 0#960).zeroExtend 1024)] base).vecSlot vec0).a.extractLsb' 960 8 = 0xFF#8 ∧
    (base.vecSlot vec0).a.extractLsb' 960 8 ≠ 0xFF#8 ∧ e5m2.decode 0x7C = .inf false ∧ e4m3.decode 0x7F = .nan false ∧
    e2m1.decode 0 = .fin false 0 (-1) := by decide +kernel
-- QuantisationWritesItsBlocks: active elements, none, and the three kinds of a block
theorem witness_quantisation : (base.vecSlot vec0).active 7 = true ∧ (base.vecSlot { vec0 with g := 1#3 }).active 7 = false ∧
    (base.me.view (.sl 0)).extractLsb' 0 8 ≠ 0xFF#8 ∧
    ((onSeq (fun q => { q with sl := [(0, 0xFF#8)] }) base).me.view (.sl 0)).extractLsb' 0 8 = 0xFF#8 ∧ vec0.t.toNat < 3 ∧ vec0.w ≠ 3#2 ∧ (base.vecSlot vec0).block 0 ≠ [] ∧
    (base.vecSlot { vec0 with g := 1#3 }).block 0 = [] ∧ [Machine.Num.nan false].any (fun x => x.isNan || x.isInf) = true ∧
    [Machine.Num.fin false 0 0].any (fun x => x.isNan || x.isInf) = false ∧ [Machine.Num.fin false 0 0].all (fun x => x.isZero) = true := by decide +kernel
-- each kind of element that a code holds or does not: 3/4 in MXINT4, a NaN, an infinity, and 1/16, which is no MXFP4 value
theorem witness_quantised : (binary32.decode 0x7F800001).isNan = true ∧ (binary32.decode 0xFF800000).isInf = true ∧
    (127 : Nat) ≠ 0xFF ∧ ¬Claims.below (.fin false 3 (-2)) (.fin false 3 (-2)) ∧ Claims.below (e2m1.decode 0) (.fin false 1 (-4)) :=
  ⟨by decide +kernel, by decide +kernel, by decide, fun h => absurd h (by simp only [Claims.below]; omega),
    by show Claims.below (.fin false 0 (-1)) (.fin false 1 (-4)); simp only [Claims.below, Claims.units]; decide⟩
-- SpecialFunctionsGiveTheirTable: each type, a quiet and a signalling NaN
theorem witness_special : (2 : Nat) < 3 ∧ ((typeFmt 2).decode 0x7E00).isNan = true ∧ ((typeFmt 2).decode 0x7D00).isSignalling = true := by
  decide +kernel
-- SortFormsExchangeTheirPairs: a pair that exchanges and one that stays
theorem witness_sort : (3 : Nat).testBit 2 = false ∧ precedes 7 32 false false 1 0 2 0 = true ∧
    precedes 7 32 false false 2 0 1 0 = false := by decide +kernel
-- the order of R188: both zeros, a NaN, and the least and greatest integers of a type
theorem witness_sort_order : (0x80000000 : Nat) < 2 ^ typeSize 0 ∧ (typeFmt 0).signBit = 0x80000000 ∧ ((typeFmt 1).decode 0x7FC0).isNan = true ∧
    (0x8000 : Nat) < 2 ^ typeSize 6 ∧ (0x7FFF : Nat) < 2 ^ typeSize 6 ∧ ((typeFmt 2).decode 0xFC00).isNan = false ∧
    Claims.below ((typeFmt 0).decode 0xFF800000) ((typeFmt 0).decode 0) :=
  ⟨by decide, by decide +kernel, by decide +kernel, by decide, by decide, by decide +kernel,
    by rw [show (typeFmt 0).decode 0xFF800000 = .inf true by decide +kernel, show (typeFmt 0).decode 0 = .fin false 0 (-149) by decide +kernel]; rfl⟩
/-- Segment 1 is plain, 2 readonly, 3 tagged, 4 holds a barrier object at 0; tag 5 is live. s1 to s4 are offsets at the end
of a segment; s5 and s6 are a barrier's EXP and PB; s7 names slot 9 on this loom. -/
def mem : State :=
  let object := [(13, 0x18#8)]   -- PB = 0, EXP = 3: bits 122:107 of the object
  { withS [(1, 4092#64), (2, 4094#64), (3, 4096#64), (4, 4080#64), (5, 0x20003#64), (6, 0xFFFFFFFFF#64), (7, 9#64)]
    (withSegs [(1, seg4k [(4092, 0x80#8)]), (2, { seg4k [] with readonly := true }), (3, { seg4k [] with tagged := true }),
      (4, seg4k object)] base) with allocators := [(0, { Allocator.reset with live := [(5, 0)] })] }
/-- A store of a word: the segment, the offset's register and s[E]. -/
def at_ (seg : BitVec 12) (o : BitVec 6) (e : BitVec 7) : MemSeg := ⟨false, e, seg, o, 0#6, 0#4⟩
/-- The lines of an access hold no error. -/
def clean (s : State) (a : Access) : Prop := (s.checkLines s.cur.loom s.me.launch s.myTenancy a.seg a.tag a.lines).1 = none
/-- Such lines are clean for the statements, with the state after their checks. -/
theorem clean_reads (s : State) (a : Access) (h : clean s a) : ∃ s1, readsClean s a s1 := ⟨_, Prod.ext h rfl⟩
-- LoadsLandTheirBytes: the last word, doubleword (at 4080) and vector run (at 0) of a segment
theorem witness_loads : mem.myFault (runAccess 1 0 4092 4 4 false) = none ∧ clean mem (runAccess 1 0 4092 4 4 false) ∧
    mem.myFault (runAccess 1 0 4080 8 8 false) = none ∧ clean mem (runAccess 1 0 4080 8 8 false) ∧
    mem.myFault (runAccess 1 0 0 128 128 false) = none ∧ clean mem (runAccess 1 0 0 128 128 false) ∧
    offsetOf mem 1#6 0#6 4 = 4092 ∧ offsetOf mem 0#6 0#6 128 = 0 := by unfold clean; decide +kernel
-- LoadsChangeNoMemory
theorem witness_loads_frame : Instr.slot (.lw (at_ 1 1 3)) = some ⟨.lw, .memSeg (at_ 1 1 3)⟩ ∧
    mem.slotAccess ⟨.lw, .memSeg (at_ 1 1 3)⟩ = some (runAccess 1 0 4092 4 4 false) ∧ (∃ t, exec (.lw (at_ 1 1 3)) mem = .next t) :=
  ⟨rfl, rfl, _, rfl⟩
-- StoresWriteTheirBytes: each size at the end of the segment; a full fence, an acquire and an empty one
theorem witness_stores : mem.issue.isSome = true ∧ mem.myFault (runAccess 1 0 4095 1 1 true) = none ∧
    mem.myFault (runAccess 1 0 4088 8 8 true) = none ∧ mem.myFault (runAccess 1 0 3968 128 128 true) = none ∧
    (1#16 ≠ 0#16 ∧ 0#2 ≠ 1#2) ∧ mem.cur.loom < 1280 ∧ mem.cur.stream = none := by decide +kernel
-- GatherAndScatterMoveTheirWords: the first element, and all that have bit 31 set
theorem witness_gather : mem.myFault { seg := 1, tag := 0, offs := [4092], size := 4, align := 4, write := false } = none ∧
    clean mem { seg := 1, tag := 0, offs := [4092], size := 4, align := 4, write := false } ∧
    mem.myFault { seg := 1, tag := 0, offs := [], size := 4, align := 4, write := true } = none := by unfold clean; decide +kernel
-- AtomicsGiveTheirTable
theorem witness_atomics : mem.issue.isSome = true ∧ mem.atomicRun.isSome = true ∧
    mem.myFault (runAccess 1 0 4092 4 4 true) = none ∧ clean mem (runAccess 1 0 4092 4 4 false) ∧
    mem.myFault (runAccess 1 0 4088 8 8 true) = none ∧ clean mem (runAccess 1 0 4088 8 8 false) := by unfold clean; decide +kernel
/-- An overlay of the last line for the last tag. -/
def lastOverlay : Overlay :=
  { tag := 4095, seg := 3, line := 65535, state := .resident, home := 0, ref := false, pins := 0, slot := none, fresh := false,
    data := [], poisoned := false }
-- SegmentWritesReachTheirInstance: a base with an overlay, and a tag of its own, at the last cells
theorem witness_segment_write :
    let s := onRun (fun r => { r with overlays := [lastOverlay] }) mem
    ((s.loom s.cur.loom).run s.me.launch).isSome = true ∧
    Tab.find? [(3, { seg4k [] with tagged := true })] 3 = some { seg4k [] with tagged := true } ∧
    (∀ o ∈ [lastOverlay], o.tag < 4096 ∧ o.line < 65536) ∧ (4095 : Nat) < 4096 ∧ 4194300 + [0#8, 0#8, 0#8, 0#8].length ≤ 4194304 := by
  decide +kernel
-- AccessChecksFollowTheirTable: each check fails at its boundary, the earlier ones passing
theorem witness_access_checks : mem.myFault (runAccess 5 0 0 4 4 true) = some (0x212, 0, 0) ∧
    mem.myFault (runAccess 2 0 2 4 4 true) = some (0x213, 0, 2) ∧ mem.myFault (runAccess 3 4 2 4 4 true) = some (0x302, 0, 2) ∧
    mem.myFault (runAccess 3 5 0 4 4 true) = none ∧ mem.myFault (runAccess 1 0 4094 4 4 true) = some (0x210, 0, 4094) ∧
    mem.myFault (runAccess 1 0 4096 4 4 false) = some (0x211, 0, 4096) ∧ mem.myFault (runAccess 2 0 4092 4 4 false) = none ∧
    mem.myFault (runAccess 5 0 0 128 128 false) = some (0x212, 0, 0) ∧
    mem.myFault { seg := 5, tag := 0, offs := [], size := 4, align := 4, write := true } = some (0x212, 0, 0) := by
  decide +kernel
-- BarrierObjectSlotsGiveTheirUpdates
theorem witness_barrier_objects : (mem.readObject mem.me.launch mem.myTenancy ⟨0, 1, 4080⟩).1 = none ∧
    ((onLoom (fun l => { l with ecc := [(.segment 0 1 63, .uncorrectable)] }) mem).readObject mem.me.launch mem.myTenancy ⟨0, 1, 4080⟩).1.isSome = true ∧
    mem.objectFault 1 4080 = none ∧ (mem.objectFault 5 0).isSome = true ∧ (mem.objectHere 4 0).exp < 2 ^ 16 ∧ (mem.rS 5#6).extractLsb' 0 16 ≠ 0#16 ∧
    (mem.rS 0#6).extractLsb' 0 16 = 0#16 ∧ (mem.objectHere 1 4080).pb + 0xFFFFFFFFF < 2 ^ 36 ∧
    mem.bindFault 0 1 4080 (mem.rS 7#6) = none ∧ 1 ≤ (mem.objectHere 4 0).exp ∧
    (mem.objectHere 4 0).arr ≤ (mem.objectHere 4 0).exp ∧ (mem.objectHere 4 0).pb < 2 ^ 36 := by decide +kernel
theorem witness_barrier_overflow :
    let s := onRun (fun r => { r with segs := [(1, seg4k [(4086, 0x80#8)])] }) mem
    (s.objectHere 1 4080).pb = 1 ∧ 2 ^ 36 ≤ (s.objectHere 1 4080).pb + 0xFFFFFFFFF := by decide +kernel
/-- The sequencer holds banks 0 and 19, at step 64. -/
def vault : State :=
  { onSeq (fun q => { q with banks := 0x80001#20 }) base with cur := { Cur.none with lane := .ma, step := 64 } }
/-- A bank with a row, or with its last commands. -/
def row3 : BankState := { BankState.closed with row := some 255, lastAct := some 40, firstAccess := false }
def setBank (b : Nat) (k : BankState) : State → State := onLoom (fun l => { l with banks := [(b, k)] })
-- VaultRowCommandsGiveTheirEffect: each distance at its bound and one short of it
theorem witness_vault_rows :
    vault.me.banks.getLsbD 0 = true ∧ vault.me.banks.getLsbD 19 = true ∧ vault.me.banks.getLsbD 1 = false ∧
    ((vault.loom 0).bank 0).row = none ∧ vault.issue.bind (fun i => i.vaultBank) = none ∧
    (let b := ((setBank 19 { BankState.closed with lastAct := some 0, lastPre := some 48, lastRef := some 16 } vault).loom 0).bank 19
     b.row = none ∧ b.lastAct.all (fun y => y + 64 ≤ 64) = true ∧ b.lastPre.all (fun y => y + 16 ≤ 64) = true ∧
     b.lastRef.all (fun y => y + 48 ≤ 64) = true) ∧
    (let b := ((setBank 0 { BankState.closed with lastAct := some 1 } vault).loom 0).bank 0
     b.row = none ∧ b.lastAct.all (fun y => y + 64 ≤ 64) = false) ∧
    (((setBank 0 { row3 with lastAccess := some 56 } vault).loom 0).bank 0).row.isSome = true ∧ (56 : Nat) + 8 ≤ 64 := by decide +kernel
-- each refusal: another's bank, an open and a closed one, each distance one short, and the second port, before whose 0x502 they come
theorem witness_vault_refusals :
    let mb : State := { onIssue (fun i => { i with vaultBank := some (0, BankState.closed) }) vault with cur := { vault.cur with lane := .mb } }
    let near := fun (k : BankState) => ((setBank 0 k vault).loom 0).bank 0
    vault.me.banks.getLsbD 1 = false ∧ (near row3).row.isSome = true ∧ (near BankState.closed).row.isNone = true ∧
    ¬(57 : Nat) + 8 ≤ 64 ∧ (near { row3 with lastAccess := some 57 }).lastAccess = some 57 ∧
    ¬(17 : Nat) + 48 ≤ 64 ∧ (near { BankState.closed with lastRef := some 17 }).lastRef = some 17 ∧
    ¬(41 : Nat) + 24 ≤ 64 ∧ (near { row3 with lastAct := some 41 }).firstAccess = false ∧
    (mb.issue.bind (fun i => i.vaultBank)).any (fun k => k.1 == 0) = true ∧ mb.cur.lane = .mb := by decide +kernel
-- mb names the bank of ma, as ma found it (0x502), or another
theorem witness_vault_ports :
    let s : State := { onIssue (fun i => { i with vaultBank := some (0, BankState.closed) }) vault with cur := { vault.cur with lane := .mb } }
    s.otherPortBank 0 = some BankState.closed ∧ s.otherPortBank 19 = none ∧ s.issue.map (·.vaultBank) = some (some (0, BankState.closed)) := by
  decide +kernel
-- VaultColumnsMoveTheirBytes: the last row, the first access 24 steps after the activation, one register and two
theorem witness_vault_columns :
    let s := setBank 0 row3 vault
    let noted := (s.updIssue (fun i => { i with vaultBank := some (0, row3) })).updBank 0 (fun x =>
      { x with firstAccess := true, lastAccess := some s.cur.step })
    s.me.banks.getLsbD 0 = true ∧ ((s.loom 0).bank 0).row = some 255 ∧ (255 : Nat) < 256 ∧ (40 : Nat) + 24 ≤ s.cur.step ∧
    s.cur.lane ≠ .mb ∧ (noted.checkVault 0 s.myTenancy [32640, 32641]).1 = none ∧ (31#6).toNat < 32 ∧ ¬(32#6).toNat < 32 := by decide +kernel
-- a column of order 1 whose first line is poisoned
theorem witness_vault_poison : (255 * 8192 + 5) / 64 ∈ ((onLoom (fun l => { l with vaultPoison := [32640] }) vault).loom 0).vaultPoison ∧
    (1#2 : BitVec 2) ≠ 0#2 ∧ (vault.loom 0).vaultPoison = [] := by decide +kernel
/-- s1 names shared bank 7's last line of loom 15, s2 of loom 0, s3 of its neighbour 4. -/
def shared : State := withS [(1, 0xF0FFFF80#64), (2, 0x00FFFF80#64), (3, 0x40FFFF80#64)] base
-- SharedBankSlotsJoinTheirQueue
theorem witness_shared_banks : shared.issue.isSome = true ∧ shared.cur.stream = none ∧
    (∀ r ∈ [2#6, 3#6], let w := shared.rS r
      let owner := 16 * (shared.cur.loom / 16) + (w.extractLsb' 28 4).toNat
      w.extractLsb' 32 32 = 0#32 ∧ w.extractLsb' 24 4 = 0#4 ∧ (w.extractLsb' 0 21).toNat % 128 = 0 ∧
      (owner = shared.cur.loom ∨ neighbours owner shared.cur.loom = true) ∧ (shared.loom owner).contained = false) ∧
    neighbours 15 0 = false := by decide +kernel
/-- Window 0 maps 64 KiB of tier 2 for reads and writes; s1 names its last doubleword, s2 the one after it. -/
def far : State :=
  onTenancy (fun t => { t with windows := [(0, 0x70000000080000000000000000000000#128)] })
    (withS [(1, 0x800000000000FFF8#64), (2, 0x8000000000010000#64)] base)
-- FarSlotsReachTheirTarget: the last doubleword passes, the next does not, nor what is no far descriptor
theorem witness_far : far.cur.stream = none ∧ far.cur.loom < 1280 ∧ far.issue.isSome = true ∧
    far.windowFault far.myTenancy (far.rS 1#6) 8 8 false = none ∧ far.windowFault far.myTenancy (far.rS 1#6) 8 8 true = none ∧
    far.windowFault far.myTenancy (far.rS 2#6) 8 8 false = some 0x405 ∧
    far.windowFault far.myTenancy (far.rS 0#6) 8 8 true = some 0x401 ∧ far.farSeenPoison 0 1 0 0xFFF8 8 = false ∧
    ({ far with tier2Poison := [0x3FF] } : State).farSeenPoison 0 1 0 0xFFF8 8 = true := by decide +kernel
/-- A command that has just entered its queue. -/
def cmd0 (op : Mnemonic) : Cmd :=
  { op := op, launch := 0, seq := 0, pick := 0, step := 0, lane := 0, stamp := 0, tag := 0#12, token := none, aq := false,
    rl := false, scope := 0, args := [], ac := 0, fa := 0, fb := 0, fn := 0, dest := 0, shape := 0#128, window := 0#320, rows := 0,
    cursor := 0#64, begun := false, active := false, chunk := none, requested := none, stopped := false, parked := false,
    again := false, done := false, posted := false, scaled := none, work := ⟨[], 0#64, 0, false, false⟩, offered := none,
    answer := none, partnerStopped := false, waitedSince := none, waitReported := false }
/-- A loop entry. -/
def entry0 : LoopEntry := { left := 1, first := 0, last := 16, depth := 0, rep := false, stride := 0 }
-- TransfersLeaveForTheirTarget: the last pick, the end of the picks, an address between picks; entries kept and popped
theorem witness_transfers :
    let s := withS [(1, 16#64), (2, 32#64), (3, 8#64)] (onRun (fun r => { r with pickBytes := 32 }) base)
    s.issue.isSome = true ∧ s.cur.stream = none ∧ s.myRun.map (·.pickBytes) = some 32 ∧ (32 : Nat) ≤ 262144 ∧
    ((s.rS 1#6).toNat % 16 = 0 ∧ (s.rS 1#6).toNat < 32) ∧ ¬(s.rS 2#6).toNat < 32 ∧ (s.rS 3#6).toNat % 16 ≠ 0 ∧
    s.rS 1#6 ≠ 0#64 ∧ s.rS 0#6 = 0#64 := by decide +kernel
theorem witness_transfer_flow :
    let s := onSeq (fun q => { q with loops := [entry0, { entry0 with last := 48, depth := 1 }] }) base
    s.me.loops = [entry0, { entry0 with last := 48, depth := 1 }] ∧ (∀ x ∈ [{ entry0 with last := 48, depth := 1 }], x.last ≠ entry0.last) ∧
    popTo s.me.loops 32 = [{ entry0 with last := 48, depth := 1 }] ∧ popTo s.me.loops 64 = [] := by decide +kernel
-- LoopsPushTheirEntry: five entries and six, a queue of 15 and of 16 counts, an empty one with and without a fill
theorem witness_loops :
    let five := onSeq (fun q => { q with loops := List.replicate 5 entry0 }) base
    let six := onSeq (fun q => { q with loops := List.replicate 6 entry0 }) base
    let counts := fun (n : Nat) => onLoom (fun l => { l with cq := [(0, List.replicate n 2#32)] }) base
    let fill := onLoom (fun l => { l with queues := { Queues.empty with fill := [cmd0 .cqfill] } }) base
    base.issue.isSome = true ∧ base.cur.stream = none ∧ five.me.loops.length < 6 ∧ 6 ≤ six.me.loops.length ∧
    (Tab.get ((counts 15).loom 0).cq 0 []).length < 16 ∧ 16 ≤ (Tab.get ((counts 16).loom 0).cq 0 []).length ∧
    Tab.get (base.loom 0).cq 0 [] = [] ∧ (fill.loom 0).filling fill.me.launch 0 = true ∧
    (base.loom 0).filling base.me.launch 0 = false ∧ base.me.loops = [] := by decide +kernel
-- LoopRunsItsBodyCountTimes, at the least and the greatest count
theorem witness_loop_end : { entry0 with last := 0, left := 2 }.last = 0 ∧ 1 < { entry0 with left := 2 }.left ∧ (base.issue.map (fun k => (k.control, k.pick))) = some (.fallThrough, 0) := by
  decide +kernel
theorem witness_loop_count : (1 ≤ (1 : Nat) ∧ (1 : Nat) < 2 ^ 32) ∧ 1 ≤ 2 ^ 32 - 1 ∧ Tab.get ([] : Tab Word) 0 0#32 = 0#32 := by decide +kernel
/-- A command outstanding with token 1. -/
def tokens : State :=
  { onLoom (fun l => { l with queues := { Queues.empty with shuttle := [{ cmd0 .copy with token := some 1 }] } }) base with cycle := 1 }
-- SequencerControlGivesItsEffect: tokens set, outstanding and never to come; a record dormant, absent and active
theorem witness_control :
    let set := onSeq (fun q => { q with dt := 0xFF#8 }) base
    let two := onRun (fun r => { r with records := [(0, Seq.reset), (1, Seq.reset)] }) base
    base.issue.isSome = true ∧ base.cur.stream = none ∧ base.myRun.isSome = true ∧ (∀ j, j < 8 → set.me.dt.getLsbD j = true) ∧
    set.me.results = [] ∧ tokens.me.dt.getLsbD 1 = false ∧ tokens.outstanding 1 = true ∧ tokens.outstanding 0 = false ∧
    ((0 : Int) % 16 = 0 ∧ (base.myRun.map (·.pickBytes)) = some 16) ∧ (two.myRun.bind (fun r => Tab.find? r.records 1)).isSome = true ∧
    (two.seq 0 1).status = .dormant ∧ (base.myRun.bind (fun r => Tab.find? r.records 1)) = none ∧
    (base.seq 0 0).status ≠ .dormant := by decide +kernel
-- two results for one register and one for another, of set tokens and of one that is not cleared; the ends of a pick
theorem witness_results :
    let xs : List JResult := [⟨3, 0, 4, 1#64⟩, ⟨5, 1, 4, 2#64⟩, ⟨6, 1, 9, 3#64⟩, ⟨7, 2, 4, 4#64⟩]
    let s := onSeq (fun q => { q with dt := 0x07#8, results := xs }) base
    (∀ j, j < 8 → (3#8).getLsbD j = true → s.me.dtView.getLsbD j = true) ∧ s.me.group.all (fun g => match g.dest with
      | .s _ => false
      | _ => true) = true ∧
    s.me.results.filter (fun x => (3#8).getLsbD x.token) = [⟨3, 0, 4, 1#64⟩] ++ ⟨5, 1, 4, 2#64⟩ :: [⟨6, 1, 9, 3#64⟩] ∧
    (∀ y ∈ [(⟨6, 1, 9, 3#64⟩ : JResult)], y.dest ≠ 4) := by decide +kernel
theorem witness_pick_end :
    let k := base.issue
    k.map (fun k => (k.cut, k.halt, k.trapCode, k.link)) = some (none, false, none, false) ∧ k.map (fun k => k.after) = some none ∧
    (onIssue (fun k => { k with halt := true }) base).issue.map (fun k => (k.halt, k.trapCode)) = some (true, none) ∧
    (onIssue (fun k => { k with link := true, after := some (.tokens 1#8) }) base).issue.map (fun k => k.link) = some true ∧
    (k.map (fun k => k.control)) = some .fallThrough ∧ base.commitWrites.countStep.me.group = [] ∧
    base.commitWrites.countStep.me.loops.any (fun e => decide (e.last = 0)) = false := by decide +kernel
-- TagSlotsGiveTheirEffect: a quota not used up, used up, and of 0; a grant that waits; a live tag and tag 0
theorem witness_tags :
    let quota := fun (n : Nat) => onRun (fun r => { r with quota := n }) (withS [(1, 5#64)] mem)
    base.issue.isSome = true ∧ (quota 2).me.granted = none ∧ (quota 2).me.noTag = false ∧
    (((quota 2).allocator 0 0).held 0 < (quota 2).myQuota ∧ Tab.find? ((quota 2).allocator 0 0).live 1 = none ∧
      ((quota 2).allocator 0 0).ops = []) ∧
    ((quota 1).myQuota ≠ 0 ∧ (quota 1).myQuota ≤ ((quota 1).allocator 0 0).held 0) ∧ (quota 0).myQuota = 0 ∧
    (onSeq (fun q => { q with granted := some 7#12 }) mem).me.granted = some 7#12 ∧
    Tab.find? ((quota 2).allocator 0 0).live (((quota 2).rS 1#6).extractLsb' 0 12).toNat = some 0 ∧
    (((quota 2).rS 0#6).extractLsb' 0 12).toNat = 0 := by decide +kernel
/-- Slot 9 is bound to the object of segment 4. -/
def bound : State := onRun (fun r => { r with bindings := [(9, ⟨0, 4, 0⟩)] }) mem
-- BarrierSlotsArriveAndWait: the phase passed and not; no timeout, one of 0, one of 16 bits; an unbound slot
theorem witness_barriers : bound.issue.isSome = true ∧ bound.binding 9 = some ⟨0, 4, 0⟩ ∧
    (bound.barrierAt bound.me.launch ⟨0, 4, 0⟩).map (·.ph) = some 0#4 ∧
    (bound.readObject bound.me.launch bound.myTenancy ⟨0, 4, 0⟩).1 = none ∧
    ((onLoom (fun l => { l with ecc := [(.segment 0 4 0, .uncorrectable)] }) bound).readObject bound.me.launch bound.myTenancy ⟨0, 4, 0⟩).1.isSome = true ∧ (1#4).toNat ≠ 0 ∧ bound.objectReadonly ⟨0, 4, 0⟩ = false ∧
    (bound.rS 3#6).toNat % 2 ^ 16 ≠ 0 ∧ (bound.rS 0#6).toNat % 2 ^ 16 = 0 ∧ bound.rS 8#6 = 0#64 ∧ bound.rS 1#6 ≠ 0#64 ∧
    base.binding 9 = none ∧
    (onRun (fun r => { r with segs := [(4, { seg4k [] with readonly := true })] }) bound).objectReadonly ⟨0, 4, 0⟩ = true := by decide +kernel
/-- The stream sequencer of tenancy 0 with its slot, a window of tier 2, and s1 naming the window. -/
def stream : State :=
  onTenancy (fun t => { t with
    windows := [(0, 0x70000000080000000000000000000000#128), (1, 0xF0000000080000000000000000000000#128)]
    stream := { t.stream with s := [(1, 0x800000000000FFC0#64), (2, 0x8008000000000000#64), (3, 1#64)] } })
    (State.reset.withFetchWord 32 0x34084000)
-- StreamSlotsGiveTheirEffect: the block at the window's end, a word that differs and one that does not, tier 2 and the host
theorem witness_stream : stream.issue.isSome = true ∧ stream.windowFault 0 (stream.rS 1#6) 64 1 false = none ∧
    stream.windowFault 0 (stream.rS 1#6) 8 1 true = none ∧ stream.windowFault 0 (stream.rS 2#6) 8 1 true = none ∧
    winKind (stream.window 0 (farWindow (stream.rS 1#6))) = 1 ∧ winKind (stream.window 0 (farWindow (stream.rS 2#6))) = 3 ∧
    BitVec.ofNat 64 (leNat (stream.streamBytes 0 (stream.rS 1#6) 8)) = stream.rS 0#6 ∧
    BitVec.ofNat 64 (leNat (stream.streamBytes 0 (stream.rS 1#6) 8)) ≠ stream.rS 3#6 ∧
    stream.windowFault 0 (stream.rS 0#6) 64 1 false = some 0x401 ∧ (stream.tenancy 0).signals = [] ∧
    stream.readsAhead 0 stream.nextLaunch = false ∧ (stream.streamRead 0 (stream.rS 1#6) 8).1 = none ∧
    (({ stream with tier2Ecc := [(1023, .uncorrectable)] } : State).streamRead 0 (stream.rS 1#6) 8).1.isSome = true ∧
    stream.unreachable 1 65472 = false ∧ stream.tier2Ecc = [] ∧ Tab.get stream.farQueues 4 [] = [] ∧ stream.tier2Poison = [] ∧
    Tab.find? stream.lineKeys (4096 * 2 ^ 64 + 1023) = none ∧ stream.linkDown = false ∧
    ({ stream with launches := [(0, { launchOfWord with phase := .reading 1 9 })], nextLaunch := 1 } : State).readsAhead 0 1 = true := by decide +kernel
-- PreciseStopKeepsThePickRestartable, TrapStopsAfterItsPick
theorem witness_stops : base.issue.isSome = true ∧ base.cur.stream = none ∧
    (onIssue (fun k => { k with trapCode := some 42 }) base).issue.map (fun k => (k.cut, k.trapCode)) = some (none, some 42) ∧
    base.issue.map (fun k => (k.halt, k.after)) = some (false, none) := by decide +kernel
-- FaultStoreTakesItsRecords: the last free entry and none
/-- A record of an agent. -/
def record0 (agent : Nat) : FaultRecord := ⟨0#32, recordWord1 0 0 agent 0, 0#64, 0#64, 0#64, none, none⟩
-- FaultStoreTakesItsRecords: a record alone, two in the order of their agents and two that are not
theorem witness_records : ((base.record 63 (record0 0)).detected = [(63, record0 0)]) ∧ (record0 0).order ≤ (record0 10).order ∧
    ¬(record0 10).order ≤ (record0 0).order := by decide +kernel
theorem witness_fault_store : ({ Tenancy.reset with fltCount := 63 } : Tenancy).fltCount < 64 ∧
    64 ≤ ({ Tenancy.reset with fltCount := 64 } : Tenancy).fltCount := by decide +kernel
-- EndedLaunchLeavesItsLooms
theorem witness_ended : Tab.find? base.launches 0 = some launchOfWord ∧ launchOfWord.phase ≠ .ended ∧
    (base.loom 0).run 0 ≠ none ∧ ((base.loom 0).queues.of 0) = [] := by decide +kernel
/-! ### Engines -/

/-- s1 and s2 name segment 1, s3 counts one row of 128 bytes, and tokens 0 to 7 are set. -/
def engine : State :=
  onSeq (fun q => { q with dt := 0xFF#8 })
    (withS [(1, 0x0008000000000000#64), (2, 0x0008000000000800#64), (3, 0x0000000100000080#64)] (withSegs [(1, seg4k [])] base))
/-- The queue of an engine is full. -/
def full : State := onLoom (fun l => { l with queues :=
  { matrix := List.replicate 16 (cmd0 .mma), shuttle := List.replicate 16 (cmd0 .copy),
    jacquard := List.replicate 16 (cmd0 .jmk), fill := List.replicate 16 (cmd0 .cqfill) } }) engine
def mx0 : MxOps := ⟨false, 0#3, 0#3, 0#3, 1#6, 2#6, 0#4, noLent⟩
-- engineSlot's cases, for every engine: room and none; tokens set, outstanding and never to come
theorem witness_engine_slot : engine.me.dt = 0xFF#8 ∧ ((engine.loom 0).cmds .matrix).length = 0 ∧
    (∀ e ∈ [Engine.matrix, .shuttle, .jacquard, .fill], 16 ≤ ((full.loom 0).cmds e).length) ∧
    tokens.me.dt.getLsbD 1 = false ∧ tokens.outstanding 1 = true ∧ tokens.outstanding 0 = false := by decide +kernel
-- MatrixSlotsEnterTheirCommand: each product's checks pass or fail; a tile free and busy; shapes and windows good and bad
theorem witness_matrix : engine.scaledPick 0 = false ∧ engine.productFault .mma mx0 = none ∧
    engine.productFault .mmag { mx0 with fb := 7#3 } = some 0x601 ∧ (engine.loom 0).tileBusy 0 = false ∧
    (full.loom 0).tileBusy 0 = true ∧ (engine.rS 0#6).extractLsb' 28 36 = 0#36 ∧ (engine.rS 1#6).extractLsb' 28 36 ≠ 0#36 ∧
    ((engine.rS 3#6).extractLsb' 32 16 ≠ 0#16 ∧ (engine.rS 3#6).extractLsb' 48 16 = 0#16) ∧
    (engine.rS 0#6).extractLsb' 32 16 = 0#16 ∧ engine.badSegDesc (engine.rS 1#6) 0 = false := by decide +kernel
theorem witness_window :
    let s := withS [(1, 0x0008000000000000#64), (2, 0x100000000#64), (3, 0x100000000#64), (4, 0x100000000#64), (5, 0x100000000#64)] engine
    (∀ k, k < 4 → (s.rS (2#6 + BitVec.ofNat 6 k)).extractLsb' 32 16 ≠ 0#16 ∧ (s.rS (2#6 + BitVec.ofNat 6 k)).extractLsb' 48 16 = 0#16) ∧
    s.badSegDesc (s.rS 1#6) 0 = false := by decide +kernel
-- ProductChecksFollowTheirTable: each of its codes
theorem witness_product_checks : Mnemonic.mma ∈ [Mnemonic.mma, .mmaz, .mmag] ∧
    engine.productFault .mma { mx0 with fa := 3#3, fb := 1#3 } = none ∧ engine.productFault .mma { mx0 with fb := 1#3 } = some 0x601 ∧
    (onRun (fun r => { r with chunk := 0x10000001#64 }) engine).productFault .mma mx0 = some 0x603 ∧
    engine.productFault .mma { mx0 with ra := 3#6 } = some 0x604 := by decide +kernel
-- ScaleSlotsPutTheirEntries
theorem witness_scale :
    let reach := Reach.seg (ownerOf 0 (engine.rS 1#6)) (descSeg (engine.rS 1#6)) engine.rTag [descOff (engine.rS 1#6)] 1 1 false
    engine.issue.isSome = true ∧ engine.reachFault 0 engine.me.launch engine.myTenancy reach = none ∧
    (engine.reachReads 0 engine.me.launch engine.myTenancy false [reach, reach]).1 = none ∧
    (base.reachFault 0 base.me.launch base.myTenancy reach).isSome = true ∧
    (onIssue (fun k => { k with scaled := [0] }) engine).scaledPick 0 = true ∧ (engine.loom 0).queues.matrix = [] ∧
    (full.loom 0).queues.matrix ≠ [] := by decide +kernel
-- ShuttleSlotsEnterTheirCommand: checks that pass and that fail, a move of no rows
theorem witness_shuttle : engine.shuttleFault .copy (engine.rS 1#6) (engine.rS 2#6) (engine.rS 3#6) 0#64 = none ∧
    (engine.shuttleFault .copy (engine.rS 3#6) (engine.rS 2#6) (engine.rS 3#6) 0#64).isSome = true ∧
    (engine.rS 0#6).extractLsb' 32 16 = 0#16 := by decide +kernel
-- each of its codes
theorem witness_shuttle_checks : engine.shuttleFault .vxfer 0#64 0#64 0x100000040#64 0#64 = some 0x602 ∧
    engine.shuttleFault .post 0#64 (engine.rS 1#6) 0x200000080#64 0#64 = some 0x603 ∧
    engine.shuttleFault .copy (engine.rS 3#6) (engine.rS 2#6) (engine.rS 3#6) 0#64 = some 0x604 ∧
    engine.shuttleFault .reduce (engine.rS 1#6) (engine.rS 2#6) (engine.rS 3#6) 0#64 = some 0x605 ∧
    (onTenancy (fun t => { t with groups := [(0, (engine.deviceNumber.toNat, 0))] }) engine).shuttleFault .reduce (engine.rS 1#6)
      (engine.rS 2#6) (engine.rS 3#6) 0x10000#64 = none := by decide +kernel
/-! ### Events -/

/-- Change the queues of `engine`'s loom. -/
def queued (f : Queues → Queues) : State := onLoom (fun l => { l with queues := f Queues.empty }) engine
/-- A fill of one entry of segment 1, ready for its chunk. -/
def fill0 : Cmd := { cmd0 .cqfill with args := [0#64], ac := 1, rows := 1, requested := some 0 }
/-- A scaled product with one slice formed. -/
def scaled0 : Cmd := { cmd0 .mma with shape := 0#128, scaled := some ⟨0, 8, 1, 0, [[(127, 127, .nan)]], false⟩ }
/-- A sequencer record's message. -/
def message0 : Message := ⟨0, 0, 5#64⟩
-- PicksAndChunksGoOn: a pick that can issue; a replay; a grant; a fill's end; a completion; a sum that is due; a message
theorem witness_merge : idle.issue = none ∧ idle.turn.agent = 0 ∧ idle.turn.stage = 0 ∧ (idle.loom 0).mergeOrder idle.cycle = [0] ∧
    (match idle.assess (.loom 0) 0 with
      | (.ready r, u) => u.turn.fits r && !u.excluded r && !r.issuing.isEmpty
      | _ => false) = true := by decide +kernel
theorem witness_no_taga : ∀ p, idle.comesToTaga 0 (p + 1) = false := fun _ => rfl
theorem witness_no_taga0 : idle.comesToTaga 0 0 = false := by decide +kernel
theorem witness_replay : ((onSeq (fun q => { q with replaying := some 0 }) base).seq 0 0).replaying = some 0 := by decide +kernel
theorem witness_grant :
    let s := queued (fun q => { q with fill := [fill0] })
    let p := (s.plan 0 .fill fill0 4096).1
    (s.loom 0).serves .fill s.cycle = some 0 ∧ ((s.loom 0).cmds .fill)[0]? = some fill0 ∧
    (∀ m ∈ [Mnemonic.post, .recall, .pushout, .reduce], fill0.op ≠ m) ∧ p.distant = false ∧ p.fault = none ∧
    s.lostPeer 0 fill0 p.reach = false ∧ s.firstFault 0 0 (s.cmdTenancy 0 fill0) p.reach = none ∧
    s.partialWrite 0 0 (s.cmdTenancy 0 fill0) p.reach = none ∧
    (s.request 0 (engineAgent .fill) 0 0 (gatherNeeds (p.reach.flatMap (fun r => s.reachNeeds 0 r)))).1 = true := by decide +kernel
theorem witness_fill :
    let c := { fill0 with chunk := some ⟨1, 0, [], []⟩ }
    let s := onLoom (fun l => { l with cq := [(0, List.replicate 15 2#32)] }) (queued (fun q => { q with fill := [c] }))
    let u := s.updCmd 0 .fill 0 (fun c => { c with chunk := none, requested := some (s.cycle + 2) })
    (s.loom 0).cmds .fill = [c] ∧ c.done = false ∧ s.launchReset 0 c.launch = false ∧
    u.lostPeer 0 c (u.chunkReach 0 .fill c ⟨1, 0, [], []⟩).1 = false ∧
    (u.reachReads 0 c.launch (s.cmdTenancy 0 c) false (u.chunkReach 0 .fill c ⟨1, 0, [], []⟩).1).1 = none ∧
    (Tab.get (s.loom 0).cq c.dest []).length + 1 ≤ 16 := by decide +kernel
theorem witness_complete_result :
    let c := { cmd0 .jmk with done := true, token := some 7 }
    ((queued (fun q => { q with jacquard := [c] })).loom 0).completes .jacquard = some (0, c) := by decide +kernel
theorem witness_complete :
    let c := { cmd0 .copy with done := true, token := some 7 }
    let s := queued (fun q => { q with shuttle := [c] })
    (s.loom 0).completes .shuttle = some (0, c) ∧ c.rl = false ∧ c.op ≠ .jgc ∧ (7 : Nat) < 8 ∧
    (s.seq 0 c.seq).launch = c.launch ∧ (s.seq 0 c.seq).status ≠ .dormant := by decide +kernel
theorem witness_sum :
    let s := onLoom (fun l => { l with portDue := some none }) (queued (fun q => { q with matrix := [scaled0] }))
    (s.loom 0).portDue = some none ∧ (s.loom 0).scaledCmd = some (scaled0, ⟨0, 8, 1, 0, [[(127, 127, .nan)]], false⟩) ∧ (0 : Nat) < 1 ∧
    (∀ p ∈ ([[(127, 127, .nan)]] : List (List (Nat × Nat × BlockSum))).headD [], p.1 < 128 ∧ p.2.1 < 128) := by decide +kernel
theorem witness_handler :
    let s := onSeq (fun q => { q with status := .dormant }) (onLoom (fun l => { l with landing := [message0] }) base)
    (s.loom 0).nextMessage = some message0 ∧ ((s.loom 0).run 0).isSome = true ∧
    ((s.loom 0).run 0).bind (fun r => (s.loom 0).dormantOf r) = some (0, Seq.reset) := by decide +kernel
/-- A transfer of segment 1 of the launch, which is on its way. -/
def moving (m : Move) : State := onLoom (fun l => { l with transfer := some ⟨m, 0, some 0, 0, 0⟩ }) mem
def going (r : Residency) : State := onRun (fun x => { x with segs := [(1, { seg4k [] with state := r })], spillShare := 4096 }) (moving (.push 1))
-- each state that a segment moves from, and its spill slot within the share
theorem witness_moving : ∀ r ∈ [Residency.pushing, .recalling, .compacting, .allocating],
    ((((going r).loom 0).run 0).bind (fun x => Tab.find? x.segs 1)).map (fun g => (g.state, g.readonly)) = some (r, false) ∧
    (((going r).loom 0).run 0).any (fun x => decide (0 < 4096 / 64 ∧ x.slotStart 1 / 64 + 0 < x.spillShare / 64)) = true := by decide +kernel
-- LoomUnitsEndWhatTheyDo, a clause at a time
theorem witness_transfer : ((moving (.push 1)).loom 0).transfer = some ⟨.push 1, 0, some 0, 0, 0⟩ ∧ ((moving (.recall 1)).loom 0).ecc = [] ∧ (moving (.recall 1)).wasReset 0 = false ∧
    ((moving (.allocate 1)).loom 0).waiters = [] ∧ (((moving (.compact 1 0)).loom 0).run 0).bind (fun r => Tab.find? r.segs 1) ≠ none ∧
    (((onRun (fun r => { r with overlays := [lastOverlay] }) (moving (.materialise 3 4095 65535))).loom 0).run 0).bind
      (fun r => r.overlay 3 4095 65535) = some lastOverlay := by decide +kernel
theorem witness_tag_grant :
    let w : TagStall := ⟨0, 0, 0, 0, 1⟩
    let s : State := { base with allocators := [(0, { Allocator.reset with stalled := [w] })] }
    s.tagService 0 0 = .grant w ∧ (s.allocator 0 0).grant 0 1 = some 1 ∧ (s.seq 0 0).launch = 0 ∧
    (s.seq 0 0).status ≠ .dormant := by decide +kernel
theorem witness_tag_freed :
    let o : TagOp := ⟨4095, false, 0, 0, 0, 0, 0, []⟩
    let s : State := { onSeq (fun q => { q with status := .waiting (.tagOp 4095) }) base with
      allocators := [(0, { Allocator.reset with ops := [o] })] }
    (s.allocator 0 0).ops.find? (fun o => o.tag = (4095#12).toNat) = some o ∧ (∀ k ∈ loomsOf 0, (s.loom k).waiters = []) ∧
    (s.seq 0 0).launch = 0 ∧ (s.seq 0 0).status = .waiting (.tagOp 4095) := by decide +kernel
theorem witness_arrival :
    let a : Arrival := { object := ⟨0, 4, 0⟩, n := 65535, loom := 0, seq := 0, tenancy := 0, launch := 0, pick := 0,
                         step := 0, waits := none }
    let s := onLoom (fun l => { l with arriving := [a] }) bound
    (s.loom 0).arriving = [a] ∧ (∀ k ∈ loomsOf 0, (s.loom k).shared = []) ∧ (s.loom 0).waiters = [] ∧
    (s.barrierAt 0 ⟨0, 4, 0⟩).isSome = true ∧ (s.loom 0).ecc = [] ∧
    (((s.loom 0).run 0).bind (fun r => Tab.find? r.segs 4)).map (·.poison) = some [] ∧ (((s.loom 0).run 0).bind (fun r => Tab.find? r.segs 4)).isSome = true := by decide +kernel
theorem witness_timeout : ((onSeq (fun q => { q with status := .waiting (.barrier ⟨0, 4, 0⟩ 5 (some 0) true) }) bound).seq 0 0).status =
    .waiting (.barrier ⟨0, 4, 0⟩ 5 (some 0) true) ∧ 0 ≤ bound.cycle := by decide +kernel
theorem witness_refresh :
    let s : State := { onRun (fun r => { r with records := [(0, { Seq.reset with banks := 0x80000#20 })], firstStep := some 0 }) base
      with cycle := 10 ^ 9 }
    ((s.loom 0).bankOwner 19).map (fun x => (x.1, x.2.2)) = some (0, 0) ∧
    (((s.loom 0).run 0).bind (fun r => (s.loom 0).deadline r 19 7)).any (fun d => decide (d ≤ s.cycle)) = true := by decide +kernel
theorem witness_bank_state : Tab.find? ((setBank 19 { BankState.closed with refreshEnds := some 0 } base).loom 0).banks 19 =
    some { BankState.closed with refreshEnds := some 0 } ∧ (∀ p ∈ (base.loom 0).runs, 0 ≤ p.2.band) ∧
    (∀ p ∈ (onRun (fun r => { r with band := 2 }) base).loom 0 |>.runs, 2 ≤ p.2.band) := by decide +kernel
theorem witness_shared_serve :
    let a : SharedAccess := { id := 0, write := true, addr := 41943040, bytes := [1#8], fromLoom := 0, seq := 0, tenancy := 0,
                              launch := 0, pick := 0, step := 0, lane := 4, unseen := [], endsAt := 0 }
    ((onLoom (fun l => { l with shared := [a] }) base).loom 0).shared = [a] ∧ a.write = true := by decide +kernel
/-- A far read of tier 2, at its timeout. -/
def farRead0 : FarRead :=
  { loom := 0, seq := 0, tenancy := 0, launch := 0, window := 0, offset := 0, size := 8, issued := 0, promise := 0, target := (1, 0, 0),
    value := [], found := none, endsAt := 0, late := false }
/-- A far write to the last byte of tier 2's lines from 0. -/
def farWrite0 : FarWrite :=
  { tenancy := 0, launch := none, loom := 0, agent := 0, lane := 4, pick := 0, step := 0, window := 0, offset := 0, kind := 1, peer := 0,
    addr := 63, key := 0#512, bytes := [1#8], poisoned := false, relaxed := false, settled := false, endsAt := 0 }
-- StoresWriteTheirBytes: the performing of a waiting store and load of a shared bank and of a far write
theorem witness_performed :
    let a := fun (w : Bool) => ({ id := 0, write := w, addr := 41943040, bytes := [1#8], fromLoom := 0, seq := 0, tenancy := 0, launch := 0,
                                  pick := 0, step := 0, lane := 4, unseen := [], endsAt := 0 } : SharedAccess)
    let s : State := { onLoom (fun l => { l with shared := [a true, a false] }) base with farQueues := [(0, [farWrite0])] }
    (0 ∈ loomsOf (s.cur.loom / 16)) ∧ ((s.loom 0).shared = [] ++ a true :: [a false]) ∧ (∀ b ∈ [a false], b.write = false) ∧
    (s.seq 0 0).launch = (a false).launch ∧ (s.seq 0 0).status ≠ .dormant ∧ Tab.get s.farQueues 0 [] = [] ++ farWrite0 :: [] ∧
    s.unreachable farWrite0.kind farWrite0.addr = false ∧ farWrite0.addr + farWrite0.bytes.length ≤ 2 ^ 64 := by decide +kernel
-- SegmentWritesReachTheirInstance: a far write to tier 2 and to the host
theorem witness_far_writes : farWrite0.kind ≠ 3 ∧ { farWrite0 with kind := 3 }.kind = 3 ∧ base.linkDown = false := by decide +kernel
-- FarEventsAndLoomLossGiveTheirEffect
theorem witness_far_events :
    let s : State := { base with farReads := [(3, farRead0)], farQueues := [(4, [farWrite0])], cycle := Config.completionTimeout }
    Tab.find? s.farReads 3 = some farRead0 ∧ (s.seq 0 0).launch = 0 ∧ (s.seq 0 0).status ≠ .dormant ∧ farRead0.found = none ∧
    s.unreachable 1 0 = false ∧ farRead0.issued + Config.completionTimeout ≤ s.cycle ∧ farWrite0.settled = false ∧ { farWrite0 with settled := true }.settled = true ∧
    Tab.get s.farQueues 4 [] = [farWrite0] ∧ s.unreachable farWrite0.kind farWrite0.addr = false := by decide +kernel
theorem witness_reduce_patience :
    let c := { cmd0 .reduce with waitedSince := some 0 }
    let s : State := { queued (fun q => { q with shuttle := [c] }) with cycle := Config.reducePatience + 1 }
    (s.loom 0).cmds .shuttle = [c] ∧ c.stopped = false ∧ 0 + Config.reducePatience < s.cycle ∧
    ((s.loom 0).run 0).isSome = true ∧ c.waitReported = false := by decide +kernel
theorem witness_loom_loss :
    let lost := onLoom (fun l => { l with contained := true, quarantined := true, containments := 1 }) base
    (base.loom 0).contained = false ∧ (∀ k ∈ loomsOf 0, (base.loom k).waiters = []) ∧ (lost.loom 0).quarantined = true ∧
    (lost.loom 0).containments < 2 ∧ (lost.loom 0).resetEnds = none ∧
    ((onLoom (fun l => { l with resetEnds := some 0 }) lost).loom 0).resetEnds = some 0 ∧ (lost.loom 0).remap1 = true := by decide +kernel
/-- A launch block of image 0 whose CHK matches: 60 zero bytes, and their CRC-32C. -/
def block0 : List Byte := List.replicate 60 0#8 ++ [0x31#8, 0x05#8, 0x0B#8, 0x5A#8]
/-- Launch 5 of tenancy 0, its block at the window's end. -/
def launch5 (p : LaunchPhase) : Launch :=
  { launchOfWord with token := 7, block := 0x800000000000FFC0#64, blockBytes := block0, phase := p, looms := [] }
def launching (p : LaunchPhase) : State := { far with launches := [(5, launch5 p)], tier2 := [(65532, 0x31#8), (65533, 0x05#8), (65534, 0x0B#8), (65535, 0x5A#8)] }
/-- An image of no picks but one, and of no loom. -/
def image0 : Image :=
  { picks := [], pickBytes := 16, chunk := 0x10001000#64, band := 0, loomsets := [], seqs := [], segs := [], windows := [],
    relocs := [] }
-- LaunchesAndSwitchesGoOn: a block that matches and one that does not, at the last read; the other phases
theorem witness_launch_read : Tab.find? (launching (.reading 8 0)).launches 5 = some (launch5 (.reading 8 0)) ∧ (7 : Nat) < 8 ∧ (8 : Nat) < 9 ∧
    ((launching (.reading 8 0)).launchRead 0 0x800000000000FFC0#64 64 .ok).1 = none ∧
    (let b := (launching (.reading 8 0)).streamBytes 0 0x800000000000FFC0#64 64
     blockMatches b = true ∧ blockBad b = false ∧ blockFlags b = 0) ∧
    blockMatches ({ launching (.reading 8 0) with tier2 := [] }.streamBytes 0 0x800000000000FFC0#64 64) = false := by decide +kernel
theorem witness_launch_copies : blockCopies block0 ≤ 0 ∧ (launching (.copying 0 0)).launchRefusal (launch5 (.copying 0 0)) = some 0xA20 ∧
    (onTenancy (fun t => { t with partition := [0], images := [(0, image0)] }) (launching (.copying 0 0))).launchRefusal
      (launch5 (.copying 0 0)) = none := by decide +kernel
theorem witness_launch_start :
    let s := onTenancy (fun t => { t with partition := [0], images := [(0, image0)] }) (launching .waiting)
    Tab.find? (s.tenancy 0).images 0 = some image0 ∧ s.mayBegin 5 (launch5 .waiting) = true ∧
    s.launchOver 5 (launch5 .running) = true ∧ s.launchOver 5 (launch5 .ending) = true := by decide +kernel
theorem witness_watch :
    let s := onTenancy (fun t => { t with stream := { t.stream with status := .waiting (.watch 0x800000000000FFC0#64 1#64 2) } }) far
    (s.tenancy 0).stream.status = .waiting (.watch 0x800000000000FFC0#64 1#64 2) ∧
    (s.streamRead 0 0x800000000000FFC0#64 8).1 = none ∧
    (({ s with tier2Ecc := [(1023, .uncorrectable)] } : State).streamRead 0 0x800000000000FFC0#64 8).1.isSome = true ∧
    BitVec.ofNat 64 (leNat (s.streamBytes 0 0x800000000000FFC0#64 8)) ≠ 1#64 := by decide +kernel
/-- The launch of `base`, and one of tenancy 63. -/
def two : State := onLoom (fun l => { l with runs := Tab.put l.runs 1 { runOfWord .sa 0#32 with tenancy := 63 } }) base
def switch0 : Switching := ⟨0, none, [0], [], none, none, none, none⟩
theorem witness_quantum : (base.loom 0).switching = none ∧ (base.loom 0).holder = some 0 ∧ (base.loom 0).quantumEnds ≤ base.cycle ∧
    (base.loom 0).weight 0 ≠ 0 ∧ (base.loom 0).nextTenancy 0 = none ∧ (two.loom 0).nextTenancy 0 = some 63 := by decide +kernel
theorem witness_switch : (base.loom 0).allReached switch0 = true ∧ (base.loom 0).scaledCmd = none ∧ switch0.savesAt = none ∧
    switch0.restoresAt = none ∧ (two.loom 0).hosts 63 = true ∧ (two.loom 0).weight 63 ≠ 0 ∧
    ((onLoom (fun l => { l with weights := [(63, 0#8)] }) two).loom 0).weight 63 = 0 := by decide +kernel
/-- A stop of a stream, and of a loom's sequencer. -/
def stop0 : Stop := ⟨0x402, 1#14, 13, 16, 0, 0, true, none, none, [], [], false⟩
-- RegisterWritesGiveTheirEffect
theorem witness_stream_registers : (base.tenancy 63).streamState = 0 ∧ (stream.tenancy 0).streamState ≠ 0 ∧ (base.tenancy 0).snapgo = false ∧
    (base.tenancy 0).dump = none ∧ (base.tenancy 0).dumpgo = false ∧
    (let s := onTenancy (fun t => { t with streamState := 3, failedLaunch := some 5, stream := { t.stream with status := .stopped stop0 } })
       (launching .ended)
     (s.tenancy 0).streamState = 3 ∧ (s.tenancy 0).stream.status = .stopped stop0 ∧ (1#64).getLsbD 0 = true ∧
     (s.tenancy 0).failedLaunch = some 5 ∧ (Tab.find? s.launches 5).isSome = true) := by decide +kernel
theorem witness_debug_registers :
    let s := onSeq (fun q => { q with status := .stopped stop0 }) (onTenancy (fun t => { t with partition := [0], dbgloom := 0#11 }) base)
    s.selected 0 = some 0 ∧ (s.seq 0 0).status = .stopped stop0 ∧ ((s.loom 0).run 0).map (·.tenancy) = some 0 ∧
    ((1279 : Nat) < 1280 ∧ [79].contains (1279 / 16) = true) := by decide +kernel
theorem witness_dump : ([] : List Byte).length ≤ 64 ∧ (0 : Nat) ≤ ([] : List Byte).length ∧
    ((onTenancy (fun t => { t with dump := some ⟨0, 0, [], [], false, false, 0#64, [], 0, []⟩ }) base).tenancy 0).dump.map (·.poisoned) = some [] := by decide +kernel
theorem witness_fault_registers :
    let c := { cmd0 .copy with stopped := true }
    let r : FaultRecord := ⟨0x50000402#32, recordWord1 0 0 10 7, 0#64, 0#64, 0#64, some 0, some (0, 0)⟩
    let s := onTenancy (fun t => { t with faults := [(63, r)] }) (queued (fun q => { q with shuttle := [{ c with lane := 7 }] }))
    Tab.find? (s.tenancy 0).faults 63 = some r ∧ agentEngine r.agent = some .shuttle ∧ r.stop = 1 ∧ r.loom < 1280 ∧
    (s.loom r.loom).cmds .shuttle = [{ c with lane := 7 }] ∧ c.pick = r.pick.toNat ∧ 7 = r.lane ∧ c.cursor = r.step ∧ r.command = some (c.seq, c.stamp) ∧
    r.launch = some c.launch ∧ r.names c = true ∧ r.names { c with stamp := 1 } = false := by
  decide +kernel
-- ControllerEventsGiveTheirEffect: every loom's copies of its remap table are good
theorem witness_boot : ∀ l, (State.reset.loom l).remap1 = true ∧ (State.reset.loom l).remap2 = true := fun _ => ⟨rfl, rfl⟩
theorem witness_controller : (base.tenancy 63).hostPosted = [] ∧ base.boot.recovery = false ∧ { base with boot := { base.boot with recovery := true } }.boot.recovery = true ∧ base.unreachable 1 0 = false ∧ base.boot.current.entries = [] ∧
    (∀ b ∈ [true, false], ({ unit := .firmware, alternate := b } : BootFailure) ∈
      [({ unit := .firmware, alternate := true } : BootFailure), { unit := .firmware, alternate := false }]) ∧
    (∀ c ∈ [0, 79], c < 80) ∧ (255#8 : BitVec 8) ≠ 0#8 := by decide +kernel
/-- A well-formed body of one device. -/
def body (d h : BitVec 256) : MembershipBody := ⟨7#16, 1#16, 0#128, h, [d]⟩
theorem witness_membership :
    let s : State := { base with domain := some 7#16 }
    ¬((body Config.devid s.fwhash).n = 0#16 ∨ 4096 < (body Config.devid s.fwhash).n.toNat) ∧
    (body Config.devid s.fwhash).devids.length = 1 ∧ Config.devid ∈ (body Config.devid s.fwhash).devids ∧
    s.domain = some (body Config.devid s.fwhash).domain ∧
    (body Config.devid s.fwhash).fwhash = s.fwhash := ⟨by decide, rfl, List.mem_singleton.2 rfl, rfl, rfl⟩

/-! ### Chunks -/

/-- The state in which a chunk's effects are made. -/
def chunkState (s : State) (l : Nat) (e : Engine) (c : Cmd) (k : Chunk) : State :=
  let s0 := s.updCmd l e 0 (fun c => { c with chunk := none, requested := some (s.cycle + if e = .matrix then 1 else 2) })
  let r := s0.chunkReach l e c k
  ((s0.reachReads l c.launch (s.cmdTenancy l c) false r.1).2.reachReads l c.launch (s.cmdTenancy l c) true r.2).2
/-- The conditions of `chunkEnds` for the first command. -/
def chunkMeets (s : State) (l : Nat) (e : Engine) (c : Cmd) (k : Chunk) : Bool :=
  let s0 := s.updCmd l e 0 (fun c => { c with chunk := none, requested := some (s.cycle + if e = .matrix then 1 else 2) })
  let r := s0.chunkReach l e c k
  let r1 := s0.reachReads l c.launch (s.cmdTenancy l c) false r.1
  decide (((s.loom l).cmds e).zipIdx.find? (fun p => p.1.chunk.isSome) = some (c, 0)) && c.done == false &&
    s.launchReset l c.launch == false && s.lostPeer l c (s0.allReach l e c k) == false && r1.1.isNone &&
    (r1.2.reachReads l c.launch (s.cmdTenancy l c) true r.2).1.isNone
theorem chunkMeets_ends (s : State) (l : Nat) (e : Engine) (c : Cmd) (k : Chunk) (hl : l < 1344) (hc : c.chunk = some k)
    (h : chunkMeets s l e c k = true) : chunkEnds s l e 0 c k (chunkState s l e c k) := by
  simp only [chunkMeets, Bool.and_eq_true, decide_eq_true_eq, beq_iff_eq, Option.isNone_iff_eq_none] at h
  obtain ⟨⟨⟨⟨⟨h1, h2⟩, h3⟩, h4⟩, h5⟩, h6⟩ := h
  exact ⟨hl, h1, hc, h2, h3, h4, _, Prod.ext h5 rfl, Prod.ext h6 rfl⟩
/-- `engine`'s loom with one command, its chunk in progress, and tagged segment 3 and a barrier object in segment 4. -/
def chunked (e : Engine) (c : Cmd) : State :=
  onRun (fun r => { r with segs := [(1, seg4k [(39, 7#8), (32, 9#8), (64, 2#8)]), (3, { seg4k [] with tagged := true }), (4, seg4k [(13, 0x18#8)])] })
    (queued (fun q => match e with
      | .matrix => { q with matrix := [c] }
      | .shuttle => { q with shuttle := [c] }
      | .jacquard => { q with jacquard := [c] }
      | .fill => { q with fill := [c] }))
/-- A chunk of two beats, and a command with it. -/
def chunk2 : Chunk := ⟨2, 0, [], [0, 0]⟩
def copy0 (op : Mnemonic) (rows bytes : Nat) (rn1 : DWord) : Cmd :=
  { cmd0 op with args := [0x0008000000000800#64, 0x0008000000000000#64, BitVec.ofNat 64 (rows * 2 ^ 32 + bytes), rn1], chunk := some chunk2 }
/-- Overlays of the launch lie on loom 0 alone. -/
theorem none_elsewhere (s : State) (x : Loom) (h : s.looms = [(0, x)]) (o id : Nat) : (s.loom (o + 1)).run id = none := by
  have : s.loom (o + 1) = Loom.reset := by simp [State.loom, h, Tab.get, Tab.find?]
  rw [this]; rfl
theorem overlays_in_range (s : State) (x : Loom) (r : LoomRun) (id : Nat) (h : s.looms = [(0, x)]) (hr : x.run id = some r)
    (ho : r.overlays = []) : overlaysInRange s id := by
  intro o r1 h1 v hv
  cases o with
  | zero =>
    have : s.loom 0 = x := by simp [State.loom, h, Tab.get, Tab.find?]
    rw [this, hr] at h1
    cases h1; rw [ho] at hv; cases hv
  | succ o => rw [none_elsewhere s x h] at h1; cases h1
-- TransferChunksMoveTheirBytes, EngineChunksGiveTheirEffect: no overlay is out of range in `chunked`
theorem witness_overlays (c : Cmd) : overlaysInRange (chunked .shuttle c) 0 := overlays_in_range _ _ _ _ rfl rfl rfl
-- a chunk of each Shuttle command ends
theorem witness_chunk_ends : ∀ p ∈ [(Mnemonic.copy, 1, 40), (.mcast, 1, 40), (.fill, 1, 40), (.sctr, 2, 8), (.gthr, 2, 8), (.copyb, 1, 40),
    (.post, 1, 40), (.reduce, 1, 8)], chunkMeets (chunked .shuttle (copy0 p.1 p.2.1 p.2.2 0x0020000000000000#64)) 0 .shuttle
      (copy0 p.1 p.2.1 p.2.2 0x0020000000000000#64) chunk2 = true := by decide +kernel
theorem witness_chunk_vxfer :
    let c := { copy0 .vxfer 1 128 0#64 with args := [0x0008000000000000#64, 0#64, 0x100000080#64, 0#64] }
    let u := chunkState (chunked .shuttle c) 0 .shuttle c chunk2
    chunkMeets (chunked .shuttle c) 0 .shuttle c chunk2 = true ∧ (beatsOf u 0 c chunk2).length = 2 ∧
    (∀ j, j < 32 → (u.loom 0).foreign (u.cmdTenancy 0 c) (u.placedAt 0 0) (wordAddr 0#64 + j) = false) := by decide +kernel
-- the beats of a copy, whose places lie apart; of an sctr whose rows share a place, the later one's alone
theorem witness_beats :
    let c := copy0 .copy 1 40 0#64
    let d := copy0 .sctr 2 8 0x0020000000000000#64
    let u := chunkState (chunked .shuttle c) 0 .shuttle c chunk2
    let v := chunkState (chunked .shuttle d) 0 .shuttle d chunk2
    beatsOf u 0 c chunk2 = [⟨0, 0, 32, 0⟩, ⟨0, 32, 8, 0⟩] ∧ c.beatPlaces 0 ⟨0, 32, 8, 0⟩ = (.seg 0 1 32, [.seg 0 1 2080]) ∧
    beatsOf v 0 d chunk2 = [⟨0, 0, 8, 0⟩, ⟨1, 0, 8, 0⟩] ∧ d.beatPlaces 0 ⟨0, 0, 8, 0⟩ = (.seg 0 1 0, [.seg 0 1 2048]) ∧
    d.beatPlaces 0 ⟨1, 0, 8, 0⟩ = (.seg 0 1 8, [.seg 0 1 2048]) ∧
    ((u.loom 0).run 0).any (fun r => (Tab.find? r.segs 1).isSome) = true := by decide +kernel
theorem witness_apart : apart 0 (.seg 0 1 2048) 32 (.seg 0 1 32) 8 ∧ apart 0 (.seg 0 1 2048) 32 (.seg 0 1 2080) 8 ∧
    apart 0 (.seg 0 1 2048) 8 (.seg 0 1 8) 8 ∧ ¬apart 0 (.seg 0 1 2048) 8 (.seg 0 1 2048) 8 ∧ apart 0 (.seg 0 1 2080) 8 (.seg 0 4 0) 16 ∧
    ¬covers (.seg 0 1 2048) 32 0 1 2080 ∧ covers (.seg 0 1 2048) 32 0 1 2079 := by simp [apart, covers]
-- a far destination in reach: window 0 of tier 2
theorem witness_far_place : winKind (far.window 0 0) ≠ 0 ∧ far.unreachable (winKind (far.window 0 0)) (winTarget (far.window 0 0) 0) = false ∧
    winKind (far.window 0 0) ≠ 3 := by decide +kernel
theorem witness_credit :
    let c := copy0 .copyb 1 40 0x0020000000000000#64
    let u := chunkState (chunked .shuttle c) 0 .shuttle c chunk2
    (u.barrierAt 0 ⟨0, 4, 0⟩).map (fun o => (o.exp, o.arr, o.pb)) = some (3, 0, 0) ∧ (0 : Nat) < 40 := by decide +kernel
theorem witness_reduce :
    let c := { copy0 .reduce 1 8 0x10000#64 with answer := some (List.replicate 8 1#8) }
    let u := chunkState (chunked .shuttle c) 0 .shuttle c chunk2
    chunkMeets (chunked .shuttle c) 0 .shuttle c chunk2 = true ∧ (u.chunkBeats 0 c 1).head? = some ⟨0, 0, 8, 0⟩ ∧
    placeAt 0 c.rd (0 * shapePitch c.rn + 0) = .seg 0 1 2048 := by decide +kernel
theorem witness_ranks :
    let c := copy0 .reduce 1 8 0x10000#64
    let s := onTenancy (fun t => { t with groups := [(0, (engine.deviceNumber.toNat, 0))] }) (chunked .shuttle c)
    0 < groupSize c.rn1 ∧ s.rankAt 0 c 0 = some (s.deviceNumber.toNat, 0) ∧ s.reduceOf 0 (s.cmdTenancy 0 c) (groupId c.rn1) 0 = some (0, c) ∧
    (∀ x ∈ [[1#8, 0#8, 0#8, 0#8], [2#8, 0#8, 0#8, 0#8], [3#8, 0#8, 0#8, 0#8]], x.length = 1 * reduceBytes 2#64) := by decide +kernel
theorem witness_recall :
    let c := { cmd0 .recall with args := [0x0008000000000000#64, 0#64, 0#64, 0#64], chunk := some chunk2 }
    chunkMeets (chunked .shuttle c) 0 .shuttle c chunk2 = true := by decide +kernel
/-- Matrix commands over segment 1, and the Jacquard bound to five segments. -/
def slice0 (op : Mnemonic) : Cmd :=
  { cmd0 op with args := [0x0008000000000000#64, 0x0008000000000000#64, 0x0020000000000000#64], rows := 1, begun := true, chunk := some ⟨1, 0, [], []⟩ }
theorem witness_slices : ∀ c ∈ [slice0 .mma, slice0 .mmaz, slice0 .mmag, slice0 .mmaw, { slice0 .mmag with begun := false }, slice0 .mzero,
    { slice0 .mma with scaled := some ⟨0, 8, 0, 0, [], false⟩ }, { slice0 .mma with scaled := some ⟨0, 8, 0, 0, [], true⟩ },
    { slice0 .mmag with begun := false, scaled := some ⟨0, 8, 0, 0, [], false⟩ },
    { slice0 .mload with args := [0x0008000000000000#64, 0x100000010#64] }, { slice0 .mdrain with args := [0x0008000000000000#64, 0x100000010#64] }],
    c.chunk = some ⟨1, 0, [], []⟩ ∧ chunkMeets (chunked .matrix c) 0 .matrix c ⟨1, 0, [], []⟩ = true ∧ c.rows ≤ 128 ∧ shapeN c.shape ≤ 128 ∧
    ((chunkState (chunked .matrix c) 0 .matrix c ⟨1, 0, [], []⟩).loom 0).run 0 ≠ none := by decide +kernel
theorem witness_slice_starts : ({ slice0 .mmag with begun := false, scaled := some ⟨0, 8, 0, 0, [], false⟩ } : Cmd).startsSlice = true ∧
    ({ slice0 .mmag with begun := false } : Cmd).startsSlice = false ∧ shapeBytes 0x100000010#64 / tileFmtBytes 0 ≤ 128 := by decide +kernel
/-- One number, zero, an infinity and a NaN. -/
def num1 : Machine.Num := .fin false 1 0
theorem witness_block_sums : ([num1] : List Machine.Num).length = [num1].length ∧
    (∃ p ∈ [num1].zip [Machine.Num.nan true], p.2.isNan = true) ∧ (∃ p ∈ [Machine.Num.inf true].zip [num1], p.1.isInf = true ∧ (p.1.negative != p.2.negative) = true) ∧
    (∀ o ∈ [(false, 1, (0 : Int))], o.2.2 + (o.2.1.log2 : Int) ≤ 0) := by decide +kernel
def binding0 : JBinding := { node := 10, unique := 11, cache := 12, weight := 13, order := 14, nv := 1, levels := [0], handler := 0 }
/-- A bound Jacquard whose node segment holds two nodes, and a command of it. -/
def jacquard0 (c : Cmd) : State :=
  onRun (fun r => { r with
    jacquard := some binding0
    segs := r.segs ++ [(10, { seg4k [(8, 2#8), (24, 1#8), (40, 5#8)] with size := 32 }), (11, seg4k []), (12, seg4k []), (13, seg4k []), (14, seg4k [])] })
    (chunked .jacquard c)
def unit0 (op : Mnemonic) (args : List DWord) : Cmd := { cmd0 op with args := args, chunk := some ⟨1, 0, [], []⟩ }
/-- What a chunk of one unit does. -/
def unitOf (c : Cmd) : JStore × JWork × Nat × Option JStop :=
  let u := chunkState (jacquard0 c) 0 .jacquard c ⟨1, 0, [], []⟩
  junits 1 c [0] 0 (u.jstore 0 0 binding0) c.freshWork 0
-- a unit that ends, one that asks for a collection, and one that writes a destination
theorem witness_units :
    let stat := unit0 .jstat [0#64]
    let var := unit0 .jvar [0#64]
    let exp := unit0 .jexp [1#64, 0x0008000100000000#64]
    (∀ c ∈ [stat, var, exp], chunkMeets (jacquard0 c) 0 .jacquard c ⟨1, 0, [], []⟩ = true ∧
      (let u := chunkState (jacquard0 c) 0 .jacquard c ⟨1, 0, [], []⟩
       u.jbinding 0 c = some binding0 ∧ (u.jerrors 0 0 0 binding0 (unitOf c).1).1 = none ∧ u.outError 0 c (unitOf c).1 = none)) ∧
    (unitOf stat).2.2.2 = none ∧ (unitOf var).2.2.2.any (fun e => match e with
      | .collect r _ => r == 1
      | _ => false) = true ∧ (unitOf exp).1.out ≠ [] ∧ (unitOf exp).2.2.2 = none ∧
    [binding0.node, binding0.unique, binding0.cache, binding0.weight, binding0.order].Nodup ∧ (1 : Nat) ∉ [10, 11, 12, 13, 14] := by decide +kernel
-- a child that is none: its recursion stops
theorem witness_unit_fault :
    let c := { unit0 .jsat [2#64, 0x0008000000000000#64] with work := ⟨[], 0#64, 2, true, false⟩ }
    let u := chunkState (jacquard0 c) 0 .jacquard c ⟨1, 0, [], []⟩
    ((junits 1 c [0] 0 (u.jstore 0 0 binding0) c.work 0).2.2.2).any (fun e => match e with
      | .fault _ _ _ => true
      | _ => false) = true := by decide +kernel
theorem witness_unit_store : ((jacquard0 (unit0 .jref [1#64])).jstore 0 0 binding0).mem.length = 5 := by decide +kernel

/-! ### The clauses of a later reading -/

-- LoadsLandTheirBytes: bytes that a stopped pick has written, and a byte written since
theorem witness_unseen :
    let k : KeptBytes := ⟨.segment 1 0, 4092, [5#8, 6#8], [0x80#8, 1#8]⟩
    base.me.resuming = none ∧ k.new.length = k.old.length ∧ k.addr + k.old.length ≤ 4194304 ∧
    (mem.myRun.map (fun r => (r.cell 1 0 4092, r.cell 1 0 4093))) = some (k.new.getD 0 0#8, 0#8) ∧
    (mem.myRun.map (fun r => ((r.unseen [k]).cell 1 0 4092, (r.unseen [k]).cell 1 0 4093))) = some (5#8, 0#8) := by decide +kernel
-- TransfersLeaveForTheirTarget, SequencerControlGivesItsEffect: an enclosing body that ends where the one left ends (R408)
theorem witness_enclosing :
    let outer := { entry0 with left := 2, last := 32 }
    let s := onSeq (fun q => { q with loops := [{ entry0 with last := 32, depth := 1 }, outer] }) base
    s.me.loops = { entry0 with last := 32, depth := 1 } :: [outer] ∧ outer.last = 32 ∧ 1 < outer.left ∧
    s.commitWrites.countStep.me.loops.any (fun e => decide (e.last = 32)) = true := by decide +kernel
-- TagSlotsGiveTheirEffect: an answer to come, none to come; a request that stands already
theorem witness_stalled :
    let q := onRun (fun r => { r with quota := 1 }) mem
    let w : TagStall := ⟨0, 0, 0, 0, 1⟩
    let s : State := { q with allocators := [(0, { Allocator.reset with live := [(5, 0)], stalled := [w] })] }
    (onSeq (fun q => { q with asked := some 1 }) q).me.asked = some 1 ∧ q.cycle < 1 ∧ (onSeq (fun q => { q with noTag := true }) q).me.noTag = true ∧
    s.myQuota ≠ 0 ∧ (s.allocator 0 0).stalled.find? (fun y => decide (y.loom = 0 ∧ y.seq = 0 ∧ y.launch = 0)) = some w ∧
    s.me.granted = none ∧ s.me.noTag = false ∧ s.me.asked = none := by decide +kernel
-- LoomUnitsEndWhatTheyDo: a tfold's line and its end; a vldr; a waiting sequencer's grant
theorem witness_fold :
    let o : TagOp := ⟨4095, true, 0, 0, 0, 0, 0, [(0, ⟨3, [], [65535]⟩)]⟩
    let s := onRun (fun r => { r with overlays := [lastOverlay] }) mem
    Tab.find? o.folding 0 = some ⟨3, [], [65535]⟩ ∧ (s.loom 0).ecc = [] ∧ (s.loom 0).waiters = [] ∧
    ((s.loom 0).run 0).bind (fun r => r.overlay 3 4095 65535) = some lastOverlay ∧
    (((s.loom 0).run 0).bind (fun r => Tab.find? r.segs 3)).isSome = true ∧ (⟨3, [], []⟩ : Folding).left = [] ∧
    ((onSeq (fun q => { q with status := .waiting (.tag 0) }) base).seq 0 0).status = .waiting (.tag 0) := by decide +kernel
theorem witness_shared_load :
    let a : SharedAccess := { id := 0, write := false, addr := 41943040, bytes := [], fromLoom := 0, seq := 0, tenancy := 0,
                              launch := 0, pick := 0, step := 0, lane := 4, unseen := [], endsAt := 0 }
    let s := onLoom (fun l => { l with shared := [a] }) base
    (s.loom 0).shared = [a] ∧ (s.loom 0).ecc = [] ∧ (s.loom 0).vaultPoison = [] ∧ (s.loom 0).lastWrites = [] ∧
    (s.seq 0 0).launch = a.launch ∧ (s.seq 0 0).status ≠ .dormant := by decide +kernel
-- PicksAndChunksGoOn: a sum in its own tile, with a zadd of it
theorem witness_port_entry :
    let s := onLoom (fun l => { l with portDue := some (some 0) }) (queued (fun q => { q with matrix := [scaled0] }))
    (s.loom 0).portDue = some (some 0) ∧ ([(127, 127)] : List (Nat × Nat)).Nodup ∧
    (s.loom 0).exponent 0 0 127 127 ≠ none := by decide +kernel
-- ScaleSlotsPutTheirEntries, ProductChecksFollowTheirTable: each scaled product; an mmaw that folds and one that does not
theorem witness_scaled_products :
    let s := onIssue (fun k => { k with scaled := [0] }) engine
    s.scaledPick 0 = true ∧ (∀ m ∈ [Mnemonic.mma, .mmaz, .mmag], s.productFault m mx0 = none) ∧ s.tileBusyNow 0 = false ∧
    (∀ j, j < 8 → mx0.eng.wm.getLsbD j = true → s.me.dtView.getLsbD j = true) ∧ s.productFault .mmaw mx0 = some 0x602 ∧
    (onSeq (fun q => { q with window := (0x0008000000000000#64 ++ 0x100000000#64 ++ 0x100000000#64 ++ 0x100000000#64 ++ 0x100000000#64 : BitVec 320) }) s).productFault
      .mmaw mx0 = none := by decide +kernel
-- ControllerEventsGiveTheirEffect: a placed launch that a weight of 0 keeps from its loom
theorem witness_weight : (two.loom 0).holder ≠ some 63 ∧
    (two.loom 0).runs.any (fun p => p.2.tenancy == 63 && p.2.stallReported == false) = true := by decide +kernel

/-! ## Single steps: results worked out from the manual -/

/-- Something of the state that a meaning leaves. -/
def left {α : Type} (o : Host.Outcome State Fault Refusal) (f : State → α) : Option α :=
  match o with
  | .next t => some (f t)
  | _ => none
/-- The last result in flight: latency, destination, and some of its low bits. -/
def last (n : Nat) (t : State) : Option (Nat × Dest × BitVec n) :=
  t.me.flight.getLast?.map (fun l => (l.step - t.cur.step, l.dest, (l.value &&& l.mask).extractLsb' 0 n))
/-- Registers for the scalar tests. -/
def sc : State := withS [(1, 0x8000000000000000#64), (2, 0xFFFFFFFFFFFFFFFF#64), (9, 0xABCD#64)] base

-- Table 9.1: sums are modulo 2^64; −2^63 by −1; a division by zero
theorem test_add_wraps : left (exec (.add ⟨false, 3#6, 1#6, 1#6⟩) sc) (last 64) = some (some (1, .s 3, 0#64)) := by decide +kernel
theorem test_div_edge : left (exec (.div ⟨false, 3#6, 1#6, 2#6⟩) sc) (last 64) = some (some (20, .s 3, 0x8000000000000000#64)) := by
  decide +kernel
theorem test_divu_zero : left (exec (.divu ⟨false, 3#6, 1#6, 0#6⟩) sc) (last 64) = some (some (20, .s 3, 0xFFFFFFFFFFFFFFFF#64)) := by
  decide +kernel
theorem test_rem_zero : left (exec (.rem ⟨false, 3#6, 9#6, 0#6⟩) sc) (last 64) = some (some (20, .s 3, 0xABCD#64)) := by decide +kernel
-- R149: a shift by 65 shifts by 1
theorem test_shl_amount : left (exec (.shlImm ⟨false, 3#6, 9#6, 65#22⟩) sc) (last 64) = some (some (1, .s 3, 0x1579A#64)) := by
  decide +kernel
theorem test_sar_sign : left (exec (.sarImm ⟨false, 3#6, 1#6, 63#22⟩) sc) (last 64) = some (some (1, .s 3, 0xFFFFFFFFFFFFFFFF#64)) := by
  decide +kernel
theorem test_mulh_signed : left (exec (.mulh ⟨false, 3#6, 1#6, 2#6⟩) sc) (last 64) = some (some (3, .s 3, 0#64)) := by decide +kernel
-- R150: bext s4, s9, 0x208 yields bits 15:8 of s9; clz of 0 is 64; movk k = 1
theorem test_bext : left (exec (.bextImm ⟨false, 4#6, 9#6, 0x208#22⟩) sc) (last 64) = some (some (1, .s 4, 0xAB#64)) := by decide +kernel
theorem test_clz_zero : left (exec (.clz ⟨false, 4#6, 0#6⟩) sc) (last 64) = some (some (1, .s 4, 64#64)) := by decide +kernel
theorem test_movk : left (exec (.movk ⟨false, 9#6, 0x101234#22⟩) sc) (last 64) = some (some (1, .s 9, 0x1234ABCD#64)) := by decide +kernel
-- R15: s0 discards its result, and s3 takes the sum of 0x0218_7001, in the step of its word
theorem test_step_addi : after State.reset 0x02187001 flights = some [(1, .s 3, 1#64)] := by decide +kernel
-- R151, R95: 1 + 2^−53 ties to even, and rounds up under RUP (frm 3); a NaN is not equal to itself
theorem test_fadd64 :
    let s := fun (m : BitVec 2) => onSeq (fun q => { q with frm := m }) (withS [(1, 0x3FF0000000000000#64), (2, 0x3CA0000000000000#64)] base)
    left (exec (.fadd64 ⟨false, 3#6, 1#6, 2#6⟩) (s 0#2)) (fun t => (last 64 t, t.me.fflags == flagInexact)) =
      some (some (4, .s 3, 0x3FF0000000000000#64), true) ∧
    left (exec (.fadd64 ⟨false, 3#6, 1#6, 2#6⟩) (s 3#2)) (last 64) = some (some (4, .s 3, 0x3FF0000000000001#64)) := by decide +kernel
theorem test_feq_nan : left (exec (.feq ⟨false, 3#6, 1#6, 1#6⟩) (withS [(1, 0x7FF8000000000000#64)] base)) (fun t => (last 64 t, t.me.fflags)) =
    some (some (4, .s 3, 0#64), 0#5) := by decide +kernel
-- Table 10.8: one fma slot, elements 0 and 2 active
theorem test_fma :
    let s : State := { onSeq (fun q => { q with q := [(2, 0x0F0F#128)] }) (withV [(5, 0xBF8010003F8000003E800000#1024),
      (7, 0x3F8008003F8000003FC00000#1024), (40, 0x3F8008003F80000040000000#1024)] base) with cur := { Cur.none with lane := .va } }
    left (exec (.fma ⟨false, 0#2, 0#3, 3#5, 40#7, 7#5, 2#3, some ⟨false, 5#5, 0#4⟩⟩) s) (fun t =>
      (t.me.flight.head?.map (fun l => (l.step, l.dest, (l.value &&& l.mask).extractLsb' 0 256, l.mask.extractLsb' 0 128)), t.me.fflags)) =
    some (some (4, .v 3, 0x338000000000000040500000#256, 0x00000000FFFFFFFF00000000FFFFFFFF#128), 0#5) := by decide +kernel
-- Table 10.2: 100 + 100 in i8 saturates to 127
theorem test_iadd_sat :
    let s : State := { withV [(1, 100#1024)] base with cur := { Cur.none with lane := .va } }
    left (exec (.iadd ⟨false, 0#2, 7#3, 3#5, 1#7, 1#5, 0#3, some ⟨false, 0#5, 2#4⟩⟩) s) (fun t =>
      t.me.flight.head?.map (fun l => (l.step, l.value.extractLsb' 0 16))) = some (some (2, 127#16)) := by decide +kernel
-- Table 10.11: one descending compare-exchange with payloads
theorem test_scxd :
    let s : State := withV [(8, 0x400000003F0000003F80000040A00000400000007FC000003F80000040400000#1024),
      (9, 0x0000000700000006000000050000000400000003000000020000000100000000#1024)] base
    left (exec (.scxd ⟨false, 0#2, 0#3, 8#7, 9#7, 2#3, 0#3, none⟩) s) (fun t =>
      t.me.flight.map (fun l => (l.step, l.dest, l.value.extractLsb' 0 256))) =
    some [(2, .v 8, 0x400000007FC000003F80000040400000400000003F0000003F80000040A00000#256),
          (2, .v 9, 0x0000000700000002000000050000000000000003000000060000000100000004#256)] := by decide +kernel
/-- The block of Table 6.6. -/
def table66 : State :=
  { withV [(1, 0x405000003F333333BE99999A40A00000#1024)] base with cur := { Cur.none with lane := .va } }
-- Table 6.6: the shared exponent and rmm, then the MXFP4 and MXINT8 codes
theorem test_vmaxe : left (exec (.vmaxe ⟨false, 2#2, 0#3, 0#5, 1#7, 0#5, 0#3, none⟩) table66) (fun t =>
    t.me.flight.map (fun l => (l.step, l.dest, l.value.extractLsb' 0 33))) =
    some [(3, .sl 0, 0x7F#33), (1, .rmm, 0x40A00000#33)] := by decide +kernel
theorem test_vqnt : left (exec (.vqnt ⟨false, 2#2, 0#3, 3#5, 1#7, 0#5, 0#3, none⟩) (onSeq (fun q => { q with sl := [(0, 0x7F#8)] }) table66))
      (last 16) = some (some (4, .v 3, 0x5196#16)) ∧
    left (exec (.vqnt ⟨false, 2#2, 0#3, 3#5, 1#7, 3#5, 0#3, none⟩) (onSeq (fun q => { q with sl := [(0, 0x81#8)] }) table66))
      (last 32) = some (some (4, .v 3, 0x340BFB50#32)) := by decide +kernel
-- Table 10.9: frcp of −0 is −Inf and raises divide-by-zero
theorem test_frcp : (specialElement .frcp 0 0x80000000 0).code = 0xFF800000 ∧ (specialElement .frcp 0 0x80000000 0).flags = flagDivZero := by
  decide +kernel
-- R194: lw sign-extends, lwu does not; a misaligned lw stops with 0x210, OUTC 0
theorem test_lw :
    let s := withS [(1, 4092#64), (2, 4094#64)] (withSegs [(1, seg4k [(4095, 0x80#8)])] base)
    left (exec (.lw (at_ 1 1 3)) s) (last 64) = some (some (12, .s 3, 0xFFFFFFFF80000000#64)) ∧
    left (exec (.lwu (at_ 1 1 3)) s) (last 64) = some (some (12, .s 3, 0x80000000#64)) := by decide +kernel
theorem test_lw_misaligned :
    left (exec (.lw (at_ 1 2 3)) mem) (fun t => (t.detected.map (fun r => (r.1, r.2.word0, r.2.operand)), t.issue.isNone)) =
    some ([(0, 0x210#32, 0x0010000000000FFE#64)], true) := by decide +kernel
-- R194: sw stores little-endian when its pick's writes are made; R198: aadd returns the old value
theorem test_sw : left (exec (.sw (at_ 1 1 5)) mem) (fun t =>
    (localByte t 0 0 1 0 4092, localByte t.commitWrites 0 0 1 0 4092, localByte t.commitWrites 0 0 1 0 4094)) =
    some (some 0x80#8, some 0x03#8, some 0x02#8) := by decide +kernel
theorem test_aadd : left (exec (.aadd (at_ 1 1 5)) mem) (fun t => (last 64 t, localByte t.commitWrites 0 0 1 0 4092)) =
    some (some (16, .s 5, 0x80#64), some 0x83#8) := by decide +kernel
-- R80: vld with ORD 2 and c = 5 puts bytes 128k + 10 and 128k + 11 into halfword k, here 257 × 3 for k = 3
theorem test_vld :
    let s := onLoom (fun l => { l with vault := [(255 * 8192 + 394, 3#8), (255 * 8192 + 395, 3#8)] }) (setBank 0 row3 vault)
    left (exec (.vld ⟨false, 12#7, 0#5, 5#6, 2#2, 0#4⟩) s) (fun t =>
      t.me.flight.head?.map (fun l => (l.step, l.dest, l.value.extractLsb' 32 32))) = some (some (84, .v 12, 0x03030000#32)) := by decide +kernel
-- R86: entry 7 with PAGE 0x2_4000 and RUN 16, and the descriptor 0x8038_0000_000F_FFC0
theorem test_window : farWindow 0x80380000000FFFC0#64 = 7 ∧ winTarget (0x24000#128 <<< 16) (farOffset 0x80380000000FFFC0#64) = 0x2400FFFC0 := by
  decide +kernel
-- Table 27.3, order B: 1, 1, then 2 gives 4 > 3
theorem test_overrun :
    let o : BarrierObj := ⟨5#4, false, 3, 0, 0, 0#55⟩
    let b := (((o.arrive 1).1.arrive 1).1.arrive 2)
    leNat b.1.bytes / 18446744073709551616 = 0x6800180000000000 ∧ b.2 = (true, true) ∧ recordWord0 3 3 0#14 0x801 = 0xF0000801#32 ∧
    recordWord1 0 0 1 13 = 0x00000E80#32 := by decide +kernel
-- R163, R320: a trap's record, and its sequencer stopped with the lanes of its pick
theorem test_step_trap : after State.reset 0x2000002A (fun t => ((t.seq 0 0).isStopped, t.detected.map (fun r => (r.1, r.2.word0)))) =
    some (true, [(0, 0x0200002A#32)]) := by decide +kernel
-- R36: a loop of count 1 at the last pick of its body falls through
theorem test_loop_end : endTests [entry0] [] 16 32 = (32, [], []) := by decide +kernel
-- R65: the lowest free tag
theorem test_taga : left (exec (.taga 4#6) mem) (last 64) = some (some (1, .s 4, 1#64)) := by decide +kernel
-- R159: a wait whose phase has passed returns PH in bits 7:4; one with a timeout of 0 returns code 1
theorem test_wait : left (exec (.wait 9#8 1#4 4#6 0#6) bound) (last 64) = some (some (1, .s 4, 0#64)) ∧
    left (exec (.wait 9#8 0#4 4#6 8#6) bound) (last 64) = some (some (1, .s 4, 1#64)) := by decide +kernel
-- R156: cqpush appends the low word
theorem test_cqpush : left (exec (.cqpush 2#2 5#6) mem) (fun t => (t.loom 0).cq) = some [(2, [0x20003#32])] := by decide +kernel
-- R211: a copy enters its queue last, and clears the tokens of its mask
theorem test_copy : left (exec (.copy ⟨false, 1#6, 2#6, 3#6, 1#3, 9#4, ⟨2#8, false, false⟩⟩) engine) (fun t =>
    (((t.loom 0).cmds .shuttle).map (fun c => (c.token, c.scope)), t.me.dt)) = some ([(some 1, 1)], 0xFD#8) := by decide +kernel
-- R404: SPC starts an idle stream with s1 at SARG
theorem test_spc : left (exec (.spcWrite 3 0x40#64) (base.updTenancy 3 (fun t => { t with sarg := 9#64 }))) (fun t =>
    ((t.tenancy 3).streamState, (t.tenancy 3).stream.rdS 1, (t.tenancy 3).stream.pc)) = some (1, 9#64, 0x40#64) := by decide +kernel
-- R90: the check value of "123456789" in CRC-32C; R89: the S-box and the column of FIPS 197's examples
theorem test_crc : crc32c ((List.range 9).map (fun i => BitVec.ofNat 8 (49 + i))) = 0xE3069283#32 := by decide +kernel
theorem test_aes : aesSub 0x53#8 = 0xED#8 ∧ aesUnsub 0xED#8 = 0x53#8 ∧
    (mixColumns [2#8, 3#8, 1#8, 1#8] [0xD4#8, 0xBF#8, 0x5D#8, 0x30#8]).take 4 = [0x04#8, 0x66#8, 0x81#8, 0xE5#8] := by decide +kernel
-- An event that names a loom that does not exist
theorem test_no_such_loom : (match exec (.containment 1280) base with | .fault f => some f | _ => none) = some .noSuchAgent := by decide +kernel
end Sys2Proof.Tests
end

section
/-!
PROOF. The state of a sequencer that becomes active (R17). Everything but the argument registers is what the reset leaves or
what the activation sets outright; the arguments stand in s1 to sN because they are placed one by one in rising registers.
-/

namespace Sys2Proof.Machine

/-- One step of an activation's placing of arguments: the next register takes the argument (R17). -/
def placeArgument (p : Nat × Tab DWord) (a : DWord) : Nat × Tab DWord := (p.1 + 1, Tab.set p.2 p.1 a 0#64)

/-- Arguments placed from register n on stand at n, n + 1, …; every other register is as before. -/
theorem get_foldl_placeArgument (args : List DWord) (n r : Nat) (t : Tab DWord) :
    Tab.get (args.foldl placeArgument (n, t)).2 r 0#64 =
      if n ≤ r then args.getD (r - n) (Tab.get t r 0#64) else Tab.get t r 0#64 := by
  induction args generalizing n t with
  | nil => rw [List.foldl_nil, List.getD_nil, ite_self]
  | cons a rest ih =>
    rw [List.foldl_cons, placeArgument, ih, Tab.get_set]
    obtain hlt | rfl | hgt := Nat.lt_trichotomy r n
    · have hnext : ¬n + 1 ≤ r := by omega
      rw [if_neg hnext, if_neg (Nat.ne_of_lt hlt), if_neg (Nat.not_le_of_lt hlt)]
    · rw [if_neg (Nat.not_succ_le_self r), if_pos rfl, if_pos (Nat.le_refl r), Nat.sub_self, List.getD_cons_zero]
    · have hindex : r - n = r - (n + 1) + 1 := by omega
      rw [if_pos (Nat.succ_le_of_lt hgt), if_neg (Nat.ne_of_gt hgt), if_pos (Nat.le_of_lt hgt), hindex, List.getD_cons_succ]

section
variable (id from_ : Nat) (pc : DWord) (args : List DWord) (rec : Seq)

theorem Seq.activated_s : (Seq.activated id pc args rec from_).s = (args.foldl placeArgument (1, [])).2 := rfl

/-- A scalar register of a sequencer that becomes active: s0 is zero, and s(r) is argument r where there is one. -/
theorem Seq.rdS_activated (r : Nat) :
    (Seq.activated id pc args rec from_).rdS r = if r = 0 then 0#64 else args.getD (r - 1) 0#64 := by
  rw [Seq.rdS, Seq.activated_s, get_foldl_placeArgument, Tab.get_nil]
  split
  · rfl
  · exact if_pos (Nat.one_le_iff_ne_zero.mpr ‹_›)

theorem Seq.rdS_activated_argument (k : Nat) :
    (Seq.activated id pc args rec from_).rdS (k + 1) = args.getD k 0#64 :=
  Seq.rdS_activated id from_ pc args rec (k + 1)

theorem Seq.rdS_activated_past {r : Nat} (hr : args.length < r) : (Seq.activated id pc args rec from_).rdS r = 0#64 := by
  have hpast : args.length ≤ r - 1 := by omega
  rw [Seq.rdS_activated, List.getD_eq_getElem?_getD, List.getElem?_eq_none hpast, Option.getD_none, ite_self]

@[simp] theorem Seq.rdV_activated (r : Nat) : (Seq.activated id pc args rec from_).rdV r = 0#1024 := rfl

theorem Seq.rdQ_activated {r : Nat} (hr : r % 8 ≠ 0) : (Seq.activated id pc args rec from_).rdQ r = 0#128 := if_neg hr

end

/-- Settles O11: the arguments by the order in which they are placed, every other part as the reset leaves it or as the
activation sets it. -/
theorem activeSequencerStartsFresh : Obligations.ActiveSequencerStartsFresh := by
  intro id from_ pc args rec _
  refine ⟨fun k _ => Seq.rdS_activated_argument id from_ pc args rec k, fun r => Seq.rdS_activated_past id from_ pc args rec,
    Seq.rdV_activated id from_ pc args rec, fun r => Seq.rdQ_activated id from_ pc args rec, ?_⟩
  -- the fields that are left do not depend on the arguments: the reset gives them, or the activation sets them
  exact ⟨rfl, rfl, fun _ => rfl, fun _ => rfl, rfl, rfl, rfl, rfl, rfl, rfl, rfl, rfl, rfl, rfl, rfl, rfl, rfl, rfl⟩

end Sys2Proof.Machine
end

section
/-!
PROOF. The integer instructions (Table 9.1). Each computes one function of two operands, whichever form gives the second one;
what is left is that the model's arithmetic on integers is the table's arithmetic on words of 64 bits.
-/

namespace Sys2Proof.Machine

/-! ## Both operand forms of an integer instruction -/

/-- Both forms of an integer instruction put f a b in flight for lat steps: b is s[B], or the sign-extended immediate (R148). -/
structure ComputesWord (reg : ScalarReg → Instr) (imm : ScalarImm → Instr) (lat : Nat) (f : DWord → DWord → DWord) :
    Prop where
  ofReg : ∀ (s : State) (o : ScalarReg), exec (reg o) s = .next (s.resultS o.d.toNat lat (f (s.rS o.a) (s.rS o.b)))
  ofImm : ∀ (s : State) (o : ScalarImm), exec (imm o) s = .next (s.resultS o.d.toNat lat (f (s.rS o.a) (o.imm.signExtend 64)))

section
variable {reg : ScalarReg → Instr} {imm : ScalarImm → Instr} {lat : Nat}

/-- The function of an instruction may be given in other words that agree on every pair of operands. -/
theorem ComputesWord.of_eq {f g : DWord → DWord → DWord} (h : ComputesWord reg imm lat f) (hfg : ∀ a b, f a b = g a b) :
    ComputesWord reg imm lat g := by
  have hsame : f = g := funext fun a => funext fun b => hfg a b
  exact hsame ▸ h

theorem shiftAmount_eq_extractLsb' (b : DWord) : shiftAmount b = (b.extractLsb' 0 6).toNat := by
  rw [BitVec.extractLsb'_toNat, Nat.shiftRight_zero, shiftAmount]

/-- A shift or a rotation by the model's amount is one by bits 5:0 of b (R149). -/
theorem ComputesWord.of_shift (g : DWord → Nat → DWord) (h : ComputesWord reg imm lat fun a b => g a (shiftAmount b)) :
    ComputesWord reg imm lat fun a b => g a (b.extractLsb' 0 6).toNat :=
  h.of_eq fun a b => by rw [shiftAmount_eq_extractLsb']

end

/-! ## High halves of products -/

/-- The high half of an integer held in 128 bits is the integer's quotient by 2^64, rounded down. -/
theorem extractLsb'_high_ofInt (n : Int) : (BitVec.ofInt 128 n).extractLsb' 64 64 = BitVec.ofInt 64 (n / 2 ^ 64) := by
  apply BitVec.eq_of_toNat_eq
  rw [BitVec.extractLsb'_toNat, BitVec.toNat_ofInt, BitVec.toNat_ofInt, Nat.shiftRight_eq_div_pow]
  omega

theorem mulHigh_eq_extractLsb' (a b : DWord) :
    mulHigh a b = (a.signExtend 128 * b.signExtend 128).extractLsb' 64 64 := by
  have hprod : a.signExtend 128 * b.signExtend 128 = BitVec.ofInt 128 (a.toInt * b.toInt) :=
    (BitVec.ofInt_mul a.toInt b.toInt).symm
  rw [hprod, extractLsb'_high_ofInt, mulHigh]

theorem mulHighU_eq_extractLsb' (a b : DWord) :
    mulHighU a b = (a.zeroExtend 128 * b.zeroExtend 128).extractLsb' 64 64 := by
  have hprod : a.zeroExtend 128 * b.zeroExtend 128 = BitVec.ofInt 128 (a.toNat * b.toNat : Nat) := by
    rw [BitVec.ofInt_natCast, BitVec.ofNat_mul, BitVec.ofNat_toNat, BitVec.ofNat_toNat]
  rw [hprod, extractLsb'_high_ofInt, mulHighU, ← BitVec.ofInt_natCast]
  rfl

/-! ## Quotients and remainders (Table 24.1) -/

theorem ofInt_tdiv_toInt (a b : DWord) : BitVec.ofInt 64 (a.toInt.tdiv b.toInt) = a.sdiv b := by
  apply BitVec.eq_of_toInt_eq
  rw [BitVec.toInt_ofInt, BitVec.toInt_sdiv]

theorem ofInt_tmod_toInt (a b : DWord) : BitVec.ofInt 64 (a.toInt.tmod b.toInt) = a.srem b := by
  rw [← BitVec.toInt_srem, BitVec.ofInt_toInt]

/-- The wrap of −2^63 by −1 is what the division of words gives already, so its case may be named or not. -/
theorem divide_eq_sdiv (a b : DWord) : divide a b =
    if b = 0#64 then BitVec.allOnes 64
    else if a = 0x8000000000000000#64 ∧ b = BitVec.allOnes 64 then a else a.sdiv b := by
  rw [divide, ofInt_tdiv_toInt]
  by_cases hedge : a = 0x8000000000000000#64 ∧ b = BitVec.allOnes 64
  · obtain ⟨rfl, rfl⟩ := hedge
    decide
  · rw [if_neg hedge]

theorem remainder_eq_srem (a b : DWord) : remainder a b =
    if b = 0#64 then a
    else if a = 0x8000000000000000#64 ∧ b = BitVec.allOnes 64 then 0#64 else a.srem b := by
  rw [remainder, ofInt_tmod_toInt]
  by_cases hedge : a = 0x8000000000000000#64 ∧ b = BitVec.allOnes 64
  · obtain ⟨rfl, rfl⟩ := hedge
    decide
  · rw [if_neg hedge]

theorem divideU_eq_udiv (a b : DWord) : divideU a b = if b = 0#64 then BitVec.allOnes 64 else a / b := by
  rw [divideU, BitVec.udiv_def]

theorem remainderU_eq_umod (a b : DWord) : remainderU a b = if b = 0#64 then a else a % b := by
  rw [remainderU, BitVec.umod_def]

/-! ## The smaller and the larger of two words -/

/-- Two tests that agree on different words select the same value, where the values are equal when the words are. -/
theorem ite_eq_ite_of_ne {p q : Prop} [Decidable p] [Decidable q] {a b x y : DWord} (hpq : a ≠ b → (p ↔ q))
    (hxy : a = b → x = y) : (if p then x else y) = if q then x else y := by
  by_cases hab : a = b
  · rw [hxy hab, ite_self, ite_self]
  · simp only [hpq hab]

theorem slt_iff_toInt_le_of_ne {a b : DWord} (hab : a ≠ b) : a.slt b = true ↔ a.toInt ≤ b.toInt := by
  have hne : a.toInt ≠ b.toInt := fun h => hab (BitVec.eq_of_toInt_eq h)
  rw [BitVec.slt_iff_toInt_lt]
  omega

theorem ult_iff_toNat_le_of_ne {a b : DWord} (hab : a ≠ b) : a.ult b = true ↔ a.toNat ≤ b.toNat := by
  have hne : a.toNat ≠ b.toNat := fun h => hab (BitVec.eq_of_toNat_eq h)
  rw [BitVec.ult_iff_toNat_lt]
  omega

theorem ite_slt_eq_ite_toInt_le {a b x y : DWord} (hxy : a = b → x = y) :
    (if a.slt b then x else y) = if a.toInt ≤ b.toInt then x else y :=
  ite_eq_ite_of_ne slt_iff_toInt_le_of_ne hxy

theorem ite_ult_eq_ite_toNat_le {a b x y : DWord} (hxy : a = b → x = y) :
    (if a.ult b then x else y) = if a.toNat ≤ b.toNat then x else y :=
  ite_eq_ite_of_ne ult_iff_toNat_le_of_ne hxy

/-! ## What each instruction computes (Table 9.1) -/

theorem add_computes : ComputesWord .add .addImm 1 (· + ·) := ⟨fun _ _ => rfl, fun _ _ => rfl⟩

theorem sub_computes : ComputesWord .sub .subImm 1 (· - ·) := ⟨fun _ _ => rfl, fun _ _ => rfl⟩

theorem mul_computes : ComputesWord .mul .mulImm 3 (· * ·) := ⟨fun _ _ => rfl, fun _ _ => rfl⟩

theorem mulh_computes : ComputesWord .mulh .mulhImm 3 (fun a b => (a.signExtend 128 * b.signExtend 128).extractLsb' 64 64) :=
  .of_eq ⟨fun _ _ => rfl, fun _ _ => rfl⟩ mulHigh_eq_extractLsb'

theorem mulhu_computes : ComputesWord .mulhu .mulhuImm 3 (fun a b => (a.zeroExtend 128 * b.zeroExtend 128).extractLsb' 64 64) :=
  .of_eq ⟨fun _ _ => rfl, fun _ _ => rfl⟩ mulHighU_eq_extractLsb'

theorem div_computes : ComputesWord .div .divImm 20 (fun a b =>
    if b = 0#64 then BitVec.allOnes 64
    else if a = 0x8000000000000000#64 ∧ b = BitVec.allOnes 64 then a else a.sdiv b) :=
  .of_eq ⟨fun _ _ => rfl, fun _ _ => rfl⟩ divide_eq_sdiv

theorem rem_computes : ComputesWord .rem .remImm 20 (fun a b =>
    if b = 0#64 then a
    else if a = 0x8000000000000000#64 ∧ b = BitVec.allOnes 64 then 0#64 else a.srem b) :=
  .of_eq ⟨fun _ _ => rfl, fun _ _ => rfl⟩ remainder_eq_srem

theorem divu_computes : ComputesWord .divu .divuImm 20 (fun a b => if b = 0#64 then BitVec.allOnes 64 else a / b) :=
  .of_eq ⟨fun _ _ => rfl, fun _ _ => rfl⟩ divideU_eq_udiv

theorem remu_computes : ComputesWord .remu .remuImm 20 (fun a b => if b = 0#64 then a else a % b) :=
  .of_eq ⟨fun _ _ => rfl, fun _ _ => rfl⟩ remainderU_eq_umod

theorem and_computes : ComputesWord .and .andImm 1 (· &&& ·) := ⟨fun _ _ => rfl, fun _ _ => rfl⟩

theorem or_computes : ComputesWord .or .orImm 1 (· ||| ·) := ⟨fun _ _ => rfl, fun _ _ => rfl⟩

theorem xor_computes : ComputesWord .xor .xorImm 1 (· ^^^ ·) := ⟨fun _ _ => rfl, fun _ _ => rfl⟩

theorem andn_computes : ComputesWord .andn .andnImm 1 (fun a b => a &&& ~~~b) := ⟨fun _ _ => rfl, fun _ _ => rfl⟩

theorem shl_computes : ComputesWord .shl .shlImm 1 (fun a b => a <<< (b.extractLsb' 0 6).toNat) :=
  .of_shift (· <<< ·) ⟨fun _ _ => rfl, fun _ _ => rfl⟩

theorem shr_computes : ComputesWord .shr .shrImm 1 (fun a b => a >>> (b.extractLsb' 0 6).toNat) :=
  .of_shift (· >>> ·) ⟨fun _ _ => rfl, fun _ _ => rfl⟩

theorem sar_computes : ComputesWord .sar .sarImm 1 (fun a b => a.sshiftRight (b.extractLsb' 0 6).toNat) :=
  .of_shift BitVec.sshiftRight ⟨fun _ _ => rfl, fun _ _ => rfl⟩

theorem rol_computes : ComputesWord .rol .rolImm 1 (fun a b => a.rotateLeft (b.extractLsb' 0 6).toNat) :=
  .of_shift BitVec.rotateLeft ⟨fun _ _ => rfl, fun _ _ => rfl⟩

theorem min_computes : ComputesWord .min .minImm 1 (fun a b => if a.toInt ≤ b.toInt then a else b) :=
  .of_eq (f := fun a b => if a.slt b then a else b) ⟨fun _ _ => rfl, fun _ _ => rfl⟩ fun _ _ =>
    ite_slt_eq_ite_toInt_le id

theorem max_computes : ComputesWord .max .maxImm 1 (fun a b => if a.toInt ≤ b.toInt then b else a) :=
  .of_eq (f := fun a b => if a.slt b then b else a) ⟨fun _ _ => rfl, fun _ _ => rfl⟩ fun _ _ =>
    ite_slt_eq_ite_toInt_le Eq.symm

theorem minu_computes : ComputesWord .minu .minuImm 1 (fun a b => if a.toNat ≤ b.toNat then a else b) :=
  .of_eq (f := fun a b => if a.ult b then a else b) ⟨fun _ _ => rfl, fun _ _ => rfl⟩ fun _ _ =>
    ite_ult_eq_ite_toNat_le id

theorem maxu_computes : ComputesWord .maxu .maxuImm 1 (fun a b => if a.toNat ≤ b.toNat then b else a) :=
  .of_eq (f := fun a b => if a.ult b then b else a) ⟨fun _ _ => rfl, fun _ _ => rfl⟩ fun _ _ =>
    ite_ult_eq_ite_toNat_le Eq.symm

theorem seq_computes : ComputesWord .seq .seqImm 1 (fun a b => boolWord (a == b)) :=
  ⟨fun _ _ => rfl, fun _ _ => rfl⟩

theorem sne_computes : ComputesWord .sne .sneImm 1 (fun a b => boolWord (a != b)) :=
  ⟨fun _ _ => rfl, fun _ _ => rfl⟩

theorem slt_computes : ComputesWord .slt .sltImm 1 (fun a b => boolWord (a.toInt < b.toInt)) :=
  ⟨fun _ _ => rfl, fun _ _ => rfl⟩

theorem sltu_computes : ComputesWord .sltu .sltuImm 1 (fun a b => boolWord (a.toNat < b.toNat)) :=
  ⟨fun _ _ => rfl, fun _ _ => rfl⟩

theorem sle_computes : ComputesWord .sle .sleImm 1 (fun a b => boolWord (a.toInt ≤ b.toInt)) :=
  ⟨fun _ _ => rfl, fun _ _ => rfl⟩

theorem sleu_computes : ComputesWord .sleu .sleuImm 1 (fun a b => boolWord (a.toNat ≤ b.toNat)) :=
  ⟨fun _ _ => rfl, fun _ _ => rfl⟩

/-- Settles O12: what each instruction computes, in the form with a register and in the form with an immediate. -/
theorem integerInstructionsGiveTheirTable : Obligations.IntegerInstructionsGiveTheirTable := by
  intro s o j
  exact ⟨add_computes.ofReg s o, add_computes.ofImm s j, sub_computes.ofReg s o, sub_computes.ofImm s j,
    mul_computes.ofReg s o, mul_computes.ofImm s j, mulh_computes.ofReg s o, mulh_computes.ofImm s j,
    mulhu_computes.ofReg s o, mulhu_computes.ofImm s j, div_computes.ofReg s o, div_computes.ofImm s j,
    rem_computes.ofReg s o, rem_computes.ofImm s j, divu_computes.ofReg s o, divu_computes.ofImm s j,
    remu_computes.ofReg s o, remu_computes.ofImm s j, and_computes.ofReg s o, and_computes.ofImm s j,
    or_computes.ofReg s o, or_computes.ofImm s j, xor_computes.ofReg s o, xor_computes.ofImm s j,
    andn_computes.ofReg s o, andn_computes.ofImm s j, shl_computes.ofReg s o, shl_computes.ofImm s j,
    shr_computes.ofReg s o, shr_computes.ofImm s j, sar_computes.ofReg s o, sar_computes.ofImm s j,
    rol_computes.ofReg s o, rol_computes.ofImm s j, min_computes.ofReg s o, min_computes.ofImm s j,
    max_computes.ofReg s o, max_computes.ofImm s j, minu_computes.ofReg s o, minu_computes.ofImm s j,
    maxu_computes.ofReg s o, maxu_computes.ofImm s j, seq_computes.ofReg s o, seq_computes.ofImm s j,
    sne_computes.ofReg s o, sne_computes.ofImm s j, slt_computes.ofReg s o, slt_computes.ofImm s j,
    sltu_computes.ofReg s o, sltu_computes.ofImm s j, sle_computes.ofReg s o, sle_computes.ofImm s j,
    sleu_computes.ofReg s o, sleu_computes.ofImm s j⟩

end Sys2Proof.Machine
end
